-- ==== Sys2Proof/Word.lean ====
section
/-! DEFINITION. The word types of the Ejwen 240 (00_scope.md, section 2.1): 16-bit words, bytes, 20-bit word addresses. -/

namespace Sys2Proof

/-- A word is 16 bits (00_scope.md, section 2.1). -/
abbrev Word := BitVec 16

/-- The upper byte is bits 15–8 and the lower byte bits 7–0 of a word. -/
abbrev Byte := BitVec 8

/-- All addresses are word addresses of 20 bits. -/
abbrev Addr := BitVec 20

/-- Four words that one 4-word burst reads together: a step record (R79) or a window table entry (R10). -/
structure Quad where
  w0 : Word
  w1 : Word
  w2 : Word
  w3 : Word
deriving DecidableEq, Repr

end Sys2Proof
end

