-- ==== Sys2Proof/Config.lean ====
section
/-! DEFINITION. What is fixed for the machine: the time unit and the values the model names (each with its log entry). The
spec leaves no value of this part free, so there is no free value here. -/

namespace Sys2Proof.Config

/-- What a byte of memory that nothing has written reads as. DESIGN CHOICE, unsafe: the spec says only "whatever the SRAM
came up with" (R176); log entry 4. -/
def unlistedByte : Byte := 0

/-- The straps CBS1, CBS0 as State.reset has sampled them. DESIGN CHOICE, unsafe: the pins are an input (R143); log entry 6. -/
def resetStrap : BitVec 2 := 0

/-- The model's time unit is 62.5 ns, the time of one bridge word (R137); a microsecond is 16 of them. -/
def unitsPerMicrosecond : Nat := 16

/-- Lock time counts in steps of 4 µs (R31). -/
def unitsPerLockStep : Nat := 64

/-- The lane period counts in steps of 100 µs (R112). -/
def unitsPerPeriodStep : Nat := 1600

/-- The abort mark lasts 40 bit times (R71). -/
def markBits : Nat := 40

/-- TAIL lasts eight bit times (R69). -/
def tailBits : Nat := 8

/-- TURNAROUND lasts two bit times (R63). -/
def turnaroundBits : Nat := 2

/-- A word on a lane takes 18 bit times (R59). -/
def wordBits : Nat := 18

/-- A lane executes at most 256 steps between two cycle starts (R81). -/
def stepBudget : Nat := 256

/-- The lock table never holds more than 4 entries (R30). -/
def lockCapacity : Nat := 4

/-- The fairness count runs from 0 to 4 (R140). -/
def fairnessLimit : Nat := 4

end Sys2Proof.Config
end

