-- ==== Sys2Proof/Syntax.lean ====
section
/-! DEFINITION. The commands of the part: one constructor for each row of spec/opcode_table.json, with the operands the model
gives it (the table gives none). -/

namespace Sys2Proof

/-- Which bytes an access selects by HUB# and HLB# (00_scope.md, section 2.1): a word access selects both, a byte access one. -/
inductive ByteSel where
  | both
  | lower
  | upper
deriving DecidableEq, Repr

/-- One processor access as it stands at the upstream port (R130). `data` is HD15–HD0 of a write and has no meaning for a read. -/
structure Access where
  write : Bool
  addr  : Addr
  data  : Word
  sel   : ByteSel
deriving DecidableEq, Repr

/-- The two moments of power-on reset (R131, R134, R176): supplies are good, with the SRAM holding these words and 0 elsewhere (log
entry 5); and its end, with RST# released. -/
inductive PowerOnEvent where
  | suppliesGood (sram : List (Addr × Word))
  | ends
deriving DecidableEq, Repr

/-- The commands, events and grants the part takes, each whole (95_what_each_step_holds.md). `arg` is the low byte of a
command word, `n` a lane. -/
inductive Instr where
  | goOffline (arg : Byte)
  | goQuiet (arg : Byte)
  | goOnline (arg : Byte)
  | loadSettings (arg : Byte)
  | loadWindows (arg : Byte)
  | startOnce (arg : Byte)
  | startContinuous (arg : Byte)
  | stop (arg : Byte)
  | abort (arg : Byte)
  | clear (arg : Byte)
  | markChanged (arg : Byte)
  | releaseLocks (arg : Byte)
  | freezeFirst (arg : Byte)
  | freezeSecond (arg : Byte)
  | softReset (arg : Byte)
  | unknownCommand (code arg : Byte)
  /-- A write to ACK0, or to ACK1 when `second` is set (R169). -/
  | acknowledgeWrite (second : Bool) (data : Word) (sel : ByteSel)
  | causeRead (sel : ByteSel)
  | firstWordRead (addr : Addr) (sel : ByteSel)
  | stampRead (addr : Addr) (sel : ByteSel)
  | trackedMirrorWrite (addr : Addr) (data : Word) (sel : ByteSel)
  | blockedWrite (addr : Addr) (data : Word) (sel : ByteSel)
  | processorWrite (addr : Addr) (data : Word) (sel : ByteSel)
  | accessWait (access : Access)
  | stepFetchGrant
  | captureGrant
  | captureBurstEnd
  | commitGrant
  | commitBurstEnd
  | drainGrant
  | drainBurstEnd
  | commandTableReadGrant
  | commandTableReadEnd
  | statusWriteGrant
  | callBegin (n : Fin 4)
  /-- The reply word of lane n's call has been received: its 16 data bits and its parity bit (R60). -/
  | replyReceived (n : Fin 4) (word : Word) (parity : Bool)
  | dataWordReceived (n : Fin 4) (word : Word) (parity : Bool)
  | replyWaitTimeout (n : Fin 4)
  | dataWaitTimeout (n : Fin 4)
  | broadcastTailEnd (n : Fin 4)
  | abortMarkEnd (n : Fin 4)
  /-- The remaining time of the lock on `record` of `window` reaches 0 (R35). -/
  | lockExpiry (window : Fin 16) (record : Nat)
  | periodTick (n : Fin 4)
  | waitDelayExpiry (n : Fin 4)
  | pulseRunOut (n : Fin 4)
  /-- An edge on TRIG, rising or falling (R118). -/
  | triggerEdge (rising : Bool)
  /-- RST# is asserted; `late` is how many word times a burst in progress has run beyond those the model has counted (R142,
  log entry 14). -/
  | hardResetAssert (late : Nat)
  /-- RST# is released with these levels on CBS1, CBS0 (R143). -/
  | hardResetRelease (straps : BitVec 2)
  /-- Power-on reset begins to let accesses pass, or ends, with these levels on CBS1, CBS0, which its end samples (log entry
  15). -/
  | powerOnReset (straps : BitVec 2) (event : PowerOnEvent)
deriving DecidableEq, Repr

end Sys2Proof
end

