-- ==== Sys2Proof/WellFormed.lean ====
section
/-! DEFINITION. When a command of the queue is one the part can meet. The operand types rule out most ill-formed commands
(addresses, lanes, byte enables); what is left is checked here. No meaning relies on these checks: an access is answered by
its address and data, whatever row it came as (log entry 11). -/

namespace Sys2Proof

/-- The codes of section 10.5 that are given to a command. -/
def knownCodes : List Byte :=
  [0x01, 0x02, 0x03, 0x04, 0x05, 0x10, 0x11, 0x12, 0x13, 0x14, 0x20, 0x21, 0x30, 0x31, 0xA5]

/-- An UNKNOWN_COMMAND carries a code that is given to no command (R149); a lock names a record index of at most 255 (R30). -/
def Instr.wellFormed : Instr → Bool
  | .unknownCommand code _ => !knownCodes.contains code
  | .lockExpiry _ record => decide (record < 256)
  | _ => true

end Sys2Proof
end

