-- ==== Sys2Proof/Decode.lean ====
section
/-! DEFINITION. The host's decode of a word numbered as spec/opcode_table.json numbers bits. No row of this part's table gives
bits (its rows are events of a block, not encodings), so no word spells a command. -/

namespace Sys2Proof

/-- The command a word spells by the table's bits: none, since no row of the table gives bits. -/
def decodeTableWord (_nbits _w : Nat) : Option Instr := none

end Sys2Proof
end

