-- ==== Sys2Proof/Machine/Banks.lean ====
section
/-! DEFINITION. Banks of like things: four lanes (n = 0–3) and sixteen windows (w = 0–15), 00_scope.md section 2.2. -/

namespace Sys2Proof.Machine

/-- One thing for each lane. -/
structure Four (α : Type) where
  e0 : α
  e1 : α
  e2 : α
  e3 : α
deriving DecidableEq, Repr

namespace Four

variable {α β : Type}

def get (v : Four α) (n : Fin 4) : α :=
  match n with
  | 0 => v.e0
  | 1 => v.e1
  | 2 => v.e2
  | 3 => v.e3

def set (v : Four α) (n : Fin 4) (x : α) : Four α :=
  match n with
  | 0 => { v with e0 := x }
  | 1 => { v with e1 := x }
  | 2 => { v with e2 := x }
  | 3 => { v with e3 := x }

def ofFn (f : Fin 4 → α) : Four α := ⟨f 0, f 1, f 2, f 3⟩

def replicate (x : α) : Four α := ⟨x, x, x, x⟩

end Four

/-- One thing for each window index, in four groups of four. -/
abbrev Sixteen (α : Type) := Four (Four α)

namespace Sixteen

variable {α : Type}

def hi (w : Fin 16) : Fin 4 := ⟨w.val / 4, by omega⟩

def lo (w : Fin 16) : Fin 4 := ⟨w.val % 4, by omega⟩

def get (v : Sixteen α) (w : Fin 16) : α := (Four.get v (hi w)).get (lo w)

def set (v : Sixteen α) (w : Fin 16) (x : α) : Sixteen α :=
  Four.set v (hi w) ((Four.get v (hi w)).set (lo w) x)

def ofFn (f : Fin 16 → α) : Sixteen α :=
  Four.ofFn fun i => Four.ofFn fun j => f ⟨4 * i.val + j.val, by omega⟩

def replicate (x : α) : Sixteen α := Four.replicate (Four.replicate x)

end Sixteen

/-- The lanes in ascending order. -/
def laneList : List (Fin 4) := [0, 1, 2, 3]

/-- The window indices in ascending order. -/
def windowList : List (Fin 16) := [0, 1, 2, 3, 4, 5, 6, 7, 8, 9, 10, 11, 12, 13, 14, 15]

end Sys2Proof.Machine
end

