-- ==== Sys2Proof/Machine/State.lean ====
section
/-! DEFINITION. The state of the Ejwen 240, block by block as 00_scope.md section 1.2 lists them, and the state after reset. -/

namespace Sys2Proof.Machine

/-! ### Memory path and arbiter -/

/-- Whether a reset holds the part: `hardReset` while RST# is asserted, `powerOnReset` from supplies good until the first
release (R131, R134). -/
inductive Phase where
  | running
  | hardReset
  | powerOnReset
deriving DecidableEq, Repr

/-- HD15–HD0 as last returned to the processor; a byte whose enable was inactive returns nothing (log entry 9). -/
structure ReadReturn where
  upper : Option Byte
  lower : Option Byte
deriving DecidableEq, Repr

/-- Who holds the memory port with a burst. A step fetch and a status write do all their work at their grant and have no row for
their end (log entry 7). -/
inductive BurstUser where
  | fetch (n : Fin 4)
  | capture (n : Fin 4)
  | commit (n : Fin 4)
  | drain (n : Fin 4)
  | tableRead
  | status
deriving DecidableEq, Repr

/-- The bridge burst that holds the memory port (R136, R139). -/
structure Burst where
  user   : BurstUser
  /-- words of the burst -/
  length : Nat
  /-- the words a commit or drain writes, in order (R42) -/
  writes : List (Addr × Word)
  /-- words accessed so far, as counted in time -/
  done   : Nat
deriving DecidableEq, Repr

/-- The pointers of the five classes into their rings (R138) and the fairness count (R140). Class 4 and 5 have one source. -/
structure Arbiter where
  commitPtr  : Fin 8
  capturePtr : Fin 4
  fetchPtr   : Fin 4
  tablePtr   : Fin 1
  statusPtr  : Fin 1
  fairness   : Nat
deriving DecidableEq, Repr

/-! ### Window unit -/

inductive WindowKind where
  | mirror
  | feed
deriving DecidableEq, Repr

/-- One entry of the window table (R1). -/
structure WindowEntry where
  base   : Addr
  lane   : Fin 4
  kind   : WindowKind
  option : Bool
  size   : Nat
  count  : Nat
deriving DecidableEq, Repr

/-- An unused entry: count 0 and every other field 0 (R1). -/
def WindowEntry.unused : WindowEntry :=
  { base := 0, lane := 0, kind := .mirror, option := false, size := 0, count := 0 }

/-! ### Lock unit -/

/-- One entry of the lock table (R30); the remaining time is in units of 62.5 ns, 64 to a 4 µs step (R31). -/
structure LockEntry where
  window    : Fin 16
  record    : Nat
  remaining : Nat
deriving DecidableEq, Repr

/-- How a call ended (chapter 4.4). -/
inductive CallOutcome where
  | ok
  | noAnswer
  | nodeFault
  | notAccepted
  | parity
  | short
  | truncated
deriving DecidableEq, Repr

/-- The fields of a stamp (R94); its word is laid out in section 10.3. -/
structure Stamp where
  count    : Nat
  outcome  : CallOutcome
  replaced : Bool
  tag      : BitVec 7
deriving DecidableEq, Repr

/-- The entry a lane builds for a commit and a hold slot keeps (R39, R40); no data words is a stamp-only entry. -/
structure HoldEntry where
  window : Fin 16
  record : Nat
  stamp  : Stamp
  data   : List Word
deriving DecidableEq, Repr

/-! ### Lane controllers and link engines -/

inductive LaneState where
  | stopped
  | waiting
  | running
  | holding
  | faulted
deriving DecidableEq, Repr

inductive StartMode where
  | none
  | once
  | period
  | trigger
deriving DecidableEq, Repr

/-- A lane's settings copy (section 10.1.5); page none is a lane that is not loaded. -/
structure LaneSettings where
  divider       : Nat
  replyTimeout  : Nat
  page          : Option (BitVec 12)
  triggerSource : Bool
  halt          : Bool
  activeLow     : Bool
  period        : Nat
  pulseWidth    : Nat
deriving DecidableEq, Repr

/-- The settings copy after every reset (R129). -/
def LaneSettings.default : LaneSettings :=
  { divider := 8, replyTimeout := 64, page := none, triggerSource := false, halt := false, activeLow := false,
    period := 100, pulseWidth := 8 }

/-- The codes of the last-error field (R128). -/
inductive ErrorCode where
  | none
  | noAnswer
  | notAccepted
  | parity
  | short
  | truncated
  | badStep
  | runaway
  | nodeFault
deriving DecidableEq, Repr

structure LastError where
  code : ErrorCode
  step : Fin 64
  node : Byte
deriving DecidableEq, Repr

def LastError.clear : LastError := { code := .none, step := 0, node := 0 }

inductive Verb where
  | put
  | get
  | ctl
deriving DecidableEq, Repr

/-- A call as the lane controller requests it (R62): `words` are the data words of a PUT or CTL, `requested` the count of a
GET. -/
structure Call where
  verb      : Verb
  node      : BitVec 6
  words     : List Word
  requested : Nat
  exact     : Bool
deriving DecidableEq, Repr

/-- The engine states of R56. -/
inductive EngineState where
  | idle
  | send
  | turnaround
  | replyWait
  | reply
  | dataWait
  | data
  | tail
  | mark
deriving DecidableEq, Repr

/-- The link engine of one lane (R56). -/
structure Link where
  engine   : EngineState
  /-- divider in use -/
  divider  : Nat
  /-- reply timeout in use -/
  timeout  : Nat
  call     : Option Call
  request  : Option Call
  /-- bit times completed in the present engine state (samples taken, in a wait); in MARK the first is the rest of the bit
  time that the cut found in progress (R71) -/
  bit      : Nat
  /-- units of 62.5 ns completed in the present bit time -/
  sub      : Nat
  /-- units of the pause still to pass (R57) -/
  pause    : Nat
  /-- LDOn for the rest of a cut bit time -/
  held     : Bool
  /-- bits of the word being received, first bit first (R60) -/
  received : List Bool
  /-- the good, accepting reply of a GET whose data are being taken (R66) -/
  reply    : Option Word
  /-- data words to take (d of R66) -/
  expected : Nat
  /-- data words received so far, good or bad -/
  taken    : Nat
  /-- a data word of the call was bad (R67) -/
  dataBad  : Bool
deriving DecidableEq, Repr

/-- A link engine after power-on or hard reset (R78). The divider and timeout in use have no value until the next call; the
model names the defaults (log entry 6). -/
def Link.reset : Link :=
  { engine := .idle, divider := 8, timeout := 64, call := none, request := none, bit := 0, sub := 0, pause := 0,
    held := false, received := [], reply := none, expected := 0, taken := 0, dataBad := false }

/-- The piece of program work a lane has in hand (R104). -/
inductive Work where
  /-- no work: STOPPED, WAITING or FAULTED -/
  | none
  /-- step-fetch claim placed for the current step index -/
  | fetchClaim
  /-- capture claim placed for the record at the position -/
  | captureClaim
  /-- capture burst in progress -/
  | capturing
  /-- a call requested or in progress -/
  | calling
  /-- commit claim placed -/
  | commitClaim (entry : HoldEntry)
  /-- commit write burst in progress -/
  | committing (entry : HoldEntry)
  /-- HOLDING, the entry kept in the inbound buffer (R45) -/
  | heldBack (entry : HoldEntry)
  /-- a WAIT step runs its delay -/
  | delay
  /-- a WAIT step waits for a trigger edge -/
  | triggerWait
deriving DecidableEq, Repr

/-- One lane controller with its link engine. -/
structure Lane where
  state          : LaneState
  startMode      : StartMode
  stopAtCycleEnd : Bool
  stopAtStepEnd  : Bool
  startOwed      : Bool
  triggerLatch   : Bool
  settings       : LaneSettings
  stepIndex      : Fin 64
  stepCount      : Nat
  cycleCount     : BitVec 16
  /-- copy of the step record being carried out -/
  step           : Option Quad
  /-- copy of the window entry the step names -/
  entry          : Option WindowEntry
  /-- the record of the step's selection that is taken -/
  position       : Nat
  work           : Work
  outbound       : List Word
  inbound        : List Word
  /-- units of 62.5 ns to go; none is a stopped timer -/
  delayTimer     : Option Nat
  periodTimer    : Option Nat
  pulseTimer     : Option Nat
  lastError      : LastError
  nodeStatus     : BitVec 6
  link           : Link
deriving DecidableEq, Repr

/-- A lane after power-on or hard reset (R106, R129). -/
def Lane.reset : Lane :=
  { state := .stopped, startMode := .none, stopAtCycleEnd := false, stopAtStepEnd := false, startOwed := false,
    triggerLatch := false, settings := LaneSettings.default, stepIndex := 0, stepCount := 0, cycleCount := 0,
    step := none, entry := none, position := 0, work := .none, outbound := [], inbound := [], delayTimer := none,
    periodTimer := none, pulseTimer := none, lastError := LastError.clear, nodeStatus := 0, link := Link.reset }

/-! ### Command engine -/

inductive Mode where
  | offline
  | quiet
  | online
deriving DecidableEq, Repr

/-- The commands of section 10.5. -/
inductive Command where
  | goOffline
  | goQuiet
  | goOnline
  | loadSettings
  | loadWindows
  | startOnce
  | startContinuous
  | stop
  | abort
  | clear
  | markChanged
  | releaseLocks
  | freezeFirst
  | freezeSecond
  | softReset
deriving DecidableEq, Repr

/-- The outcomes of a command (section 10.6.2). -/
inductive CommandOutcome where
  | done
  | busy
  | notAvailable
  | range
  | overlap
  | lanesActive
  | frozen
  | unknown
  | armed
  | state
  | notLoaded
  | executing
deriving DecidableEq, Repr

/-- The long command in progress, with its staging copy (R10, R160). -/
inductive LongCommand where
  | goOffline
  | goQuiet
  /-- the bursts of LOAD SETTINGS read so far -/
  | loadSettings (staging : List Quad)
  /-- the entries of LOAD WINDOWS read so far -/
  | loadWindows (staging : List Quad)
  /-- LOAD WINDOWS in its release-and-drain phase, with the checked table it will install (R12) -/
  | drainWindows (table : Sixteen WindowEntry)
  | softReset
deriving DecidableEq, Repr

inductive Engine where
  | idle
  | executing (long : LongCommand)
deriving DecidableEq, Repr

/-- The internal result (R150). -/
structure Result where
  code    : Byte
  outcome : CommandOutcome
  detail  : Word
deriving DecidableEq, Repr

/-- The device settings copy (R159). -/
structure DeviceSettings where
  enableA        : Word
  enableB        : BitVec 3
  lockTime       : Nat
  triggerFalling : Bool
deriving DecidableEq, Repr

/-- The device settings after every reset (R159). -/
def DeviceSettings.default : DeviceSettings := { enableA := 0, enableB := 0, lockTime := 16, triggerFalling := false }

inductive ResetCause where
  | powerOn
  | hard
  | soft
deriving DecidableEq, Repr

/-! ### Event unit and status writer -/

/-- The 19 events (R166). -/
inductive Event where
  | fault (n : Fin 4)
  | guard
  | lockDrop
  | late (n : Fin 4)
  | done (n : Fin 4)
  | mark (n : Fin 4)
  | cmdDone
deriving DecidableEq, Repr

/-- What the status writer keeps for one status word (chapter 9). -/
structure StatusSlot where
  written : Word
  /-- the forced flag as resets set it, until the word is written (R171, R176); SOFT RESET waits for that write (R163) -/
  forced  : Bool
deriving DecidableEq, Repr

/-- The whole part, the SRAM behind it and the queue of commands that wait. -/
structure State where
  /-- commands that wait, first in first out -/
  pending   : List Instr
  /-- the SRAM, as (byte key, byte) pairs in canonical form (log entry 4) -/
  mem       : List Host.Cell
  phase     : Phase
  /-- CBS1, CBS0 as sampled at the last release (R143) -/
  strap     : BitVec 2
  /-- the processor access that waits at the upstream port (R141) -/
  upstream  : Option Access
  readData  : ReadReturn
  /-- internal guard address (R133) -/
  guardAddr : Addr
  /-- the forced flag of the low guard address word, offset 86h, as a blocked write sets it, until the word is written (R133, R171;
  log entry 26) -/
  guardLowMarked : Bool
  /-- the same of the high guard address word, offset 87h -/
  guardHighMarked : Bool
  /-- the burst that holds the memory port; none when the port is free -/
  port      : Option Burst
  arbiter   : Arbiter
  /-- the active table (R1) -/
  table     : Sixteen WindowEntry
  /-- the changed sets, in ascending order of index (R16) -/
  changed   : Sixteen (List Nat)
  /-- the lock table, oldest entry first (R30) -/
  locks     : List LockEntry
  /-- the hold slots (R39) -/
  slots     : Four (Option HoldEntry)
  /-- drain claims placed (R47) -/
  drains    : Four Bool
  lanes     : Four Lane
  /-- levels that LDIn will show at the next samples; the idle level 0 when none is left (log entry 18) -/
  ldi       : Four (List Bool)
  engine    : Engine
  result    : Result
  /-- the forced flag of the result word, offset 81h, as a result sets it: marked stale, until the word is written (R150, R151,
  R171; log entry 23) -/
  resultMarked : Bool
  /-- the detail word, offset 82h, likewise -/
  detailMarked : Bool
  mode      : Mode
  armed     : Bool
  frozen    : Bool
  settings  : DeviceSettings
  resetCause : ResetCause
  /-- the pending set: event code i is bit i − 1 (R166) -/
  events    : BitVec 19
  /-- the last-written cause (R168) -/
  lastCause : Nat
  /-- the 41 status words, offsets 80h–88h and 90h–AFh in ascending order (R171) -/
  status    : List StatusSlot
  /-- the sweep position, as an index into the 41 status words (R172) -/
  sweep     : Nat
deriving DecidableEq, Repr

/-- The number of status words (chapter 9). -/
def statusWords : Nat := 41

/-- The part right after power-on reset has ended with the straps at `straps` and the SRAM holding `mem` (R15, R28, R54, R78,
R106, R129, R145, R165, R176, R177). -/
def State.powerOn (straps : BitVec 2) (mem : List Host.Cell) : State :=
  { pending := [], mem := mem, phase := .running, strap := straps, upstream := none,
    readData := { upper := none, lower := none }, guardAddr := 0, guardLowMarked := false,
    guardHighMarked := false, port := none,
    arbiter := { commitPtr := 0, capturePtr := 0, fetchPtr := 0, tablePtr := 0, statusPtr := 0, fairness := 0 },
    table := Sixteen.replicate WindowEntry.unused, changed := Sixteen.replicate [], locks := [],
    slots := Four.replicate none, drains := Four.replicate false, lanes := Four.replicate Lane.reset,
    ldi := Four.replicate [], engine := .idle, result := { code := 0, outcome := .done, detail := 0 }, resultMarked := false,
    detailMarked := false, mode := .offline,
    armed := false, frozen := false, settings := DeviceSettings.default, resetCause := .powerOn, events := 0,
    lastCause := 0, status := List.replicate statusWords { written := 0, forced := true }, sweep := 0 }

/-- The machine right after reset: power-on reset has ended, nothing is listed in memory and no command waits. The straps are
an input; the model names 00 (log entry 6). -/
def State.reset : State := State.powerOn Config.resetStrap []

/-- No event of this part stops the machine: what the manual calls a fault is the lane state FAULTED (R125), from which the
part goes on. The type has no constructor (log entry 21). -/
inductive Fault where
deriving DecidableEq, Repr

/-- Why the model has no next state. -/
inductive Refusal where
  /-- Raised by exec for a row that has no meaning yet; safe, since no claim about such a row's effect can be proved. No row is
  refused. -/
  | notModelled (mnemonic : String)
deriving DecidableEq, Repr

end Sys2Proof.Machine
end

