-- ==== Sys2Proof/Machine/Formats.lean ====
section
/-! DEFINITION. The layouts of chapter 10 (R178): every word the part reads from memory or a lane, taken apart, and every word
it writes or sends, put together. -/

namespace Sys2Proof.Machine

/-! ### Bytes and words -/

def upperByte (w : Word) : Byte := w.extractLsb' 8 8

def lowerByte (w : Word) : Byte := w.extractLsb' 0 8

/-- The word of an upper and a lower byte. -/
def joinBytes (hi lo : Byte) : Word := hi ++ lo

def selUpper : ByteSel → Bool
  | .both => true
  | .upper => true
  | .lower => false

def selLower : ByteSel → Bool
  | .both => true
  | .lower => true
  | .upper => false

/-! ### Control block map (section 10.1.1) -/

/-- The control block base the straps select (R143). -/
def baseOfStrap (straps : BitVec 2) : Addr :=
  if straps = 0 then 0x00000 else if straps = 1 then 0x3FF00 else if straps = 2 then 0x7FF00 else 0xFFF00

/-! ### Commands (sections 10.1.2, 10.5, 10.6.2) -/

def Command.code : Command → Byte
  | .goOffline => 0x01
  | .goQuiet => 0x02
  | .goOnline => 0x03
  | .loadSettings => 0x04
  | .loadWindows => 0x05
  | .startOnce => 0x10
  | .startContinuous => 0x11
  | .stop => 0x12
  | .abort => 0x13
  | .clear => 0x14
  | .markChanged => 0x20
  | .releaseLocks => 0x21
  | .freezeFirst => 0x30
  | .freezeSecond => 0x31
  | .softReset => 0xA5

def commandList : List Command :=
  [.goOffline, .goQuiet, .goOnline, .loadSettings, .loadWindows, .startOnce, .startContinuous, .stop, .abort, .clear,
   .markChanged, .releaseLocks, .freezeFirst, .freezeSecond, .softReset]

/-- The command a code is given to; none for an unknown code (R149). -/
def commandOf (code : Byte) : Option Command := commandList.find? fun c => c.code == code

def CommandOutcome.code : CommandOutcome → Byte
  | .done => 0x00
  | .busy => 0x01
  | .notAvailable => 0x02
  | .range => 0x03
  | .overlap => 0x04
  | .lanesActive => 0x05
  | .frozen => 0x06
  | .unknown => 0x07
  | .armed => 0x08
  | .state => 0x09
  | .notLoaded => 0x0A
  | .executing => 0xFF

/-- The code of the long command in progress. -/
def LongCommand.code : LongCommand → Byte
  | .goOffline => Command.code .goOffline
  | .goQuiet => Command.code .goQuiet
  | .loadSettings _ => Command.code .loadSettings
  | .loadWindows _ => Command.code .loadWindows
  | .drainWindows _ => Command.code .loadWindows
  | .softReset => Command.code .softReset

/-- The mode code of the device status word and of NOT_AVAILABLE (R150, section 10.6.1). -/
def Mode.code : Mode → Nat
  | .offline => 0
  | .quiet => 1
  | .online => 2

/-! ### Window table image (section 10.1.6) -/

/-- The entry four image words describe; a count of 0 is unused with all fields 0 (R11). -/
def windowOfQuad (q : Quad) : WindowEntry :=
  if q.w3 = 0 then WindowEntry.unused
  else
    { base := (q.w1.extractLsb' 0 4 ++ q.w0 : BitVec 20)
      lane := ⟨(q.w1.extractLsb' 4 2).toNat, (q.w1.extractLsb' 4 2).isLt⟩
      kind := if q.w1.getLsbD 8 then .feed else .mirror
      option := q.w1.getLsbD 9
      size := q.w2.toNat
      count := q.w3.toNat }

/-- The must-be-zero bits 7–6 and 15–10 of w1 are zero. -/
def windowZeroBitsOk (q : Quad) : Bool :=
  q.w1.extractLsb' 6 2 == 0 && q.w1.extractLsb' 10 6 == 0

/-! ### Settings images (sections 10.1.4, 10.1.5) -/

/-- A lane settings copy from words w0–w3 and w4–w5 of its image. -/
def laneSettingsOfQuads (a b : Quad) : LaneSettings :=
  { divider := a.w0.toNat
    replyTimeout := a.w1.toNat
    page := if a.w2 = 0xFFFF then none else some (a.w2.extractLsb' 0 12)
    triggerSource := a.w3.getLsbD 0
    halt := a.w3.getLsbD 1
    activeLow := a.w3.getLsbD 2
    period := b.w0.toNat
    pulseWidth := b.w1.toNat }

def deviceSettingsOfQuad (q : Quad) : DeviceSettings :=
  { enableA := q.w0, enableB := q.w1.extractLsb' 0 3, lockTime := q.w2.toNat, triggerFalling := q.w3.getLsbD 0 }

/-! ### Step records (section 10.2) -/

/-- The records a SEND or FETCH step selects and the node field (R89, R93). -/
structure Selection where
  window : Fin 16
  first  : Nat
  count  : Nat
  node   : BitVec 6
deriving DecidableEq, Repr

/-- The last record index of a selection. -/
def Selection.last (sel : Selection) : Nat := sel.first + sel.count - 1

/-- The node a record of the selection goes to or comes from (R89, R93): a + (k − f), or 63 for every record. -/
def Selection.nodeOf (sel : Selection) (k : Nat) : BitVec 6 :=
  if sel.node = 63 then 63 else sel.node + BitVec.ofNat 6 (k - sel.first)

/-- A step record that has passed the checks of R83 and R84. -/
inductive Step where
  | send (changedOnly : Bool) (sel : Selection)
  | fetch (exact : Bool) (sel : Selection)
  | inline (node : BitVec 6) (words : List Word)
  | pulse (markEvent : Bool)
  | wait (delay : Nat)
  | waitTrigger
  | jump (target : Fin 64)
  | finish
deriving DecidableEq, Repr

def stepKind (q : Quad) : Nat := (q.w0.extractLsb' 12 4).toNat

def stepOption (q : Quad) : Bool := q.w0.getLsbD 8

def stepNode (q : Quad) : BitVec 6 := q.w0.extractLsb' 0 6

/-- Bits 11–9 and 7–6 of w0, zero in every kind (R83). -/
def stepZeroBitsOk (q : Quad) : Bool :=
  q.w0.extractLsb' 9 3 == 0 && q.w0.extractLsb' 6 2 == 0

def selectionOf (q : Quad) : Selection :=
  { window := ⟨(q.w1.extractLsb' 12 4).toNat, (q.w1.extractLsb' 12 4).isLt⟩
    first := (q.w1.extractLsb' 0 8).toNat
    count := (q.w2.extractLsb' 0 8).toNat + 1
    node := stepNode q }

/-- The zero fields of w1, w2 and w3 of a SEND or FETCH step (R84). -/
def selectionZerosOk (q : Quad) : Bool :=
  q.w1.extractLsb' 8 4 == 0 && q.w2.extractLsb' 8 8 == 0 && q.w3 == 0

/-- The node field, w1 and w2 are 0 (R84: PULSE, WAIT, JUMP, END). -/
def plainZerosOk (q : Quad) : Bool := stepNode q == 0 && q.w1 == 0 && q.w2 == 0

/-- The checks of R83 and R84 on a step record; none is BAD_STEP. `mode` is the lane's start mode, since a trigger WAIT is
BAD_STEP in start mode TRIGGER. -/
def decodeStep (q : Quad) (mode : StartMode) : Option Step :=
  if !stepZeroBitsOk q then none
  else match stepKind q with
  | 1 => if selectionZerosOk q then some (.send (stepOption q) (selectionOf q)) else none
  | 2 => if selectionZerosOk q && stepNode q != 63 then some (.fetch (stepOption q) (selectionOf q)) else none
  | 3 =>
    if q.w1 != 0 then none
    else if stepOption q then some (.inline (stepNode q) [q.w2, q.w3])
    else if q.w3 == 0 then some (.inline (stepNode q) [q.w2]) else none
  | 4 => if plainZerosOk q && q.w3 == 0 then some (.pulse (stepOption q)) else none
  | 5 =>
    if !plainZerosOk q then none
    else if stepOption q then (if q.w3 == 0 && mode != .trigger then some .waitTrigger else none)
    else if q.w3 != 0 then some (.wait q.w3.toNat) else none
  | 6 =>
    if stepOption q || !plainZerosOk q then none
    else if h : q.w3.toNat < 64 then some (.jump ⟨q.w3.toNat, h⟩) else none
  | 7 => if !stepOption q && plainZerosOk q && q.w3 == 0 then some .finish else none
  | _ => none

/-! ### Stamp (section 10.3) -/

def CallOutcome.stampCode : CallOutcome → BitVec 3
  | .ok => 0
  | .noAnswer => 1
  | .nodeFault => 2
  | .notAccepted => 3
  | .parity => 4
  | .short => 5
  | .truncated => 6

def Stamp.word (st : Stamp) : Word :=
  (BitVec.ofNat 5 st.count ++ (st.outcome.stampCode ++ (BitVec.ofBool st.replaced ++ st.tag)) : BitVec 16)

/-- A failure outcome (R88): neither OK nor NODE_FAULT. -/
def CallOutcome.isFailure : CallOutcome → Bool
  | .ok => false
  | .nodeFault => false
  | .noAnswer => true
  | .notAccepted => true
  | .parity => true
  | .short => true
  | .truncated => true

/-- The last error code a call outcome records (R87); OK records none. -/
def CallOutcome.errorCode : CallOutcome → ErrorCode
  | .ok => .none
  | .noAnswer => .noAnswer
  | .nodeFault => .nodeFault
  | .notAccepted => .notAccepted
  | .parity => .parity
  | .short => .short
  | .truncated => .truncated

def ErrorCode.code : ErrorCode → Nat
  | .none => 0
  | .noAnswer => 1
  | .notAccepted => 2
  | .parity => 3
  | .short => 4
  | .truncated => 5
  | .badStep => 6
  | .runaway => 7
  | .nodeFault => 8

/-! ### String link words (section 10.4) -/

def Verb.code : Verb → BitVec 2
  | .put => 0
  | .get => 1
  | .ctl => 2

/-- The count field of the header (R61): data words that follow, or data words requested. -/
def Call.count (c : Call) : Nat :=
  match c.verb with
  | .get => c.requested
  | .put => c.words.length
  | .ctl => c.words.length

/-- The header word of a call (R61). -/
def Call.header (c : Call) : Word := (c.node ++ (c.verb.code ++ BitVec.ofNat 8 c.count) : BitVec 16)

/-- A call to node address 63 (R69). -/
def Call.isBroadcast (c : Call) : Bool := c.node == 63

/-- The words the part sends in a call: the header, then the data words. -/
def Call.sent (c : Call) : List Word := c.header :: c.words

/-- The data bits of a word, bit 15 first (R59). -/
def dataBits (w : Word) : List Bool :=
  [15, 14, 13, 12, 11, 10, 9, 8, 7, 6, 5, 4, 3, 2, 1, 0].map w.getLsbD

/-- The number of ones in a word is odd. -/
def oddOnes (w : Word) : Bool := (dataBits w).foldl xor false

/-- The parity bit that makes the ones of word and parity odd (R59). -/
def parityBit (w : Word) : Bool := !oddOnes w

/-- The 18 bit times of a sent word: start bit, 16 data bits, parity (R59). -/
def frame (w : Word) : List Bool := true :: (dataBits w ++ [parityBit w])

/-- A received word is good when its data bits and its parity bit hold an odd number of ones (R60). -/
def goodWord (w : Word) (parity : Bool) : Bool := xor (oddOnes w) parity

/-- The word that received bits spell, bit 15 first (R60). -/
def wordOfBits (bits : List Bool) : Word :=
  bits.foldl (fun acc b => (acc <<< 1) ||| (if b then 1 else 0)) 0

def replyAccept (w : Word) : Bool := w.getLsbD 15

def replyFault (w : Word) : Bool := w.getLsbD 14

/-- The node status, bits 13–8 (R65). -/
def replyStatus (w : Word) : BitVec 6 := w.extractLsb' 8 6

/-- AVAIL, bits 7–0 (R66). -/
def replyAvail (w : Word) : Nat := (w.extractLsb' 0 8).toNat

/-! ### Lane and reset codes (section 10.6) -/

def LaneState.code : LaneState → Nat
  | .stopped => 0
  | .waiting => 1
  | .running => 2
  | .holding => 3
  | .faulted => 4

def ResetCause.code : ResetCause → Nat
  | .powerOn => 1
  | .hard => 2
  | .soft => 3

end Sys2Proof.Machine
end

