-- ==== Sys2Proof/Machine/Operands.lean ====
section
/-! DEFINITION. Where addresses fall: the control block, program areas, windows and their records, and the guarded areas. -/

namespace Sys2Proof.Machine

/-! ### Control block (R143, R146) -/

def State.base (s : State) : Addr := baseOfStrap s.strap

/-- The address of a control block offset. -/
def State.blockAddr (s : State) (offset : Nat) : Addr := s.base + BitVec.ofNat 20 offset

/-- The control block offset of an address; none outside the block. -/
def State.blockOffset (s : State) (a : Addr) : Option Nat :=
  if s.base.toNat ≤ a.toNat && a.toNat < s.base.toNat + 256 then some (a.toNat - s.base.toNat) else none

/-! ### Runs of words -/

/-- Two runs of words, each a first address and a length, share a word. -/
def runsOverlap (a la b lb : Nat) : Bool := decide (a < b + lb) && decide (b < a + la)

/-- The first word of the program area of a page (R79). -/
def pageBase (page : BitVec 12) : Nat := page.toNat * 256

/-! ### Lanes and windows of a state -/

def State.lane (s : State) (n : Fin 4) : Lane := s.lanes.get n

/-- The active table's entry w. -/
def State.window (s : State) (w : Fin 16) : WindowEntry := Sixteen.get s.table w

def State.changedSet (s : State) (w : Fin 16) : List Nat := Sixteen.get s.changed w

/-- A lane is loaded when its settings copy names a page (R108). -/
def Lane.loaded (l : Lane) : Bool := l.settings.page.isSome

/-- STOPPED or FAULTED. -/
def Lane.atRest (l : Lane) : Bool :=
  match l.state with
  | .stopped => true
  | .faulted => true
  | .waiting => false
  | .running => false
  | .holding => false

/-- WAITING, RUNNING or HOLDING. -/
def Lane.active (l : Lane) : Bool := !l.atRest

/-! ### Windows and records (R1 to R7) -/

def WindowEntry.used (e : WindowEntry) : Bool := e.count != 0

/-- The length of the extent, size × count (R3). -/
def WindowEntry.length (e : WindowEntry) : Nat := e.size * e.count

/-- The extent of a used entry holds the address (R3). -/
def WindowEntry.holds (e : WindowEntry) (a : Addr) : Bool :=
  e.used && decide (e.base.toNat ≤ a.toNat) && decide (a.toNat < e.base.toNat + e.length)

/-- Word j of record k lies at base + k × size + j (R3). -/
def WindowEntry.wordAddr (e : WindowEntry) (k j : Nat) : Addr := BitVec.ofNat 20 (e.base.toNat + k * e.size + j)

/-- A used mirror window with change tracking (R2). -/
def WindowEntry.tracked (e : WindowEntry) : Bool := e.used && e.kind == .mirror && e.option

/-- A used feed window with read locking (R2). -/
def WindowEntry.locking (e : WindowEntry) : Bool := e.used && e.kind == .feed && e.option

/-- The activity flag: the mode is QUIET or ONLINE (R5). -/
def State.tableActive (s : State) : Bool := s.mode != .offline

/-- Where an address falls in the active table (R7). -/
structure Place where
  window : Fin 16
  record : Nat
  word   : Nat
deriving DecidableEq, Repr

/-- The window, record and word offset of an address (R7); none outside every extent and while the table is inactive (R6). -/
def State.place (s : State) (a : Addr) : Option Place :=
  if s.tableActive then
    (windowList.find? fun w => (s.window w).holds a).map fun w =>
      let e := s.window w
      { window := w, record := (a.toNat - e.base.toNat) / e.size, word := (a.toNat - e.base.toNat) % e.size }
  else none

/-! ### Guarded areas (R133, R134) -/

/-- The address lies in the program area of a loaded lane. -/
def Lane.inProgramArea (l : Lane) (a : Addr) : Bool :=
  match l.settings.page with
  | some p => decide (pageBase p ≤ a.toNat) && decide (a.toNat < pageBase p + 256)
  | none => false

/-- Offsets 80h–AFh: the status area. -/
def statusAreaOffset (off : Nat) : Bool := decide (0x80 ≤ off) && decide (off ≤ 0xAF)

/-- Offsets 03h–7Fh: the settings and images a frozen part guards. -/
def imageOffset (off : Nat) : Bool := decide (0x03 ≤ off) && decide (off ≤ 0x7F)

/-- A processor write to the address is blocked at this moment (R133). Before the first release no base has been sampled and
nothing is guarded; while RST# is asserted only the status area is (R134), since no lane is active and freeze is cleared. -/
def State.guarded (s : State) (a : Addr) : Bool :=
  match s.phase with
  | .powerOnReset => false
  | .hardReset | .running =>
    (match s.blockOffset a with
      | some off => statusAreaOffset off || (s.frozen && imageOffset off)
      | none => false)
    || laneList.any fun n => (s.lane n).inProgramArea a && ((s.lane n).active || s.frozen)

end Sys2Proof.Machine
end

