-- ==== Sys2Proof/Machine/Flags.lean ====
section
/-! DEFINITION. Events, the cause and IRQ# (chapter 9), and the internal value of every status word (section 10.6). -/

namespace Sys2Proof.Machine

/-! ### Events (R166) -/

/-- The code of an event, 1 to 19, which is also its priority. -/
def Event.code : Event → Nat
  | .fault n => 1 + n.val
  | .guard => 5
  | .lockDrop => 6
  | .late n => 7 + n.val
  | .done n => 11 + n.val
  | .mark n => 15 + n.val
  | .cmdDone => 19

/-- An event becomes pending, or stays pending when it already is (R166). -/
def State.raise (s : State) (e : Event) : State :=
  { s with events := s.events ||| BitVec.twoPow 19 (e.code - 1) }

/-- The event of a code is pending. -/
def State.isPending (s : State) (code : Nat) : Bool := s.events.getLsbD (code - 1)

/-- The enable set: event enable B above event enable A (R167). -/
def DeviceSettings.enables (d : DeviceSettings) : BitVec 19 := (d.enableB ++ d.enableA : BitVec 19)

/-- Clears every pending event whose bit is set in the mask. -/
def State.clearEvents (s : State) (mask : BitVec 19) : State := { s with events := s.events &&& ~~~mask }

/-- The bits of the events an acknowledge write clears (R169): bytes that the write enables, three bits of ACK1. -/
def ackMask (second : Bool) (data : Word) (sel : ByteSel) : BitVec 19 :=
  let enabled : Word := joinBytes (if selUpper sel then upperByte data else 0) (if selLower sel then lowerByte data else 0)
  if second then (enabled.extractLsb' 0 3 ++ (0 : BitVec 16) : BitVec 19) else enabled.setWidth 19

/-- The code a read of the cause word clears (R170), 0 for none: the returned word holds a code of 1 to 19 and nothing else. A
read of the lower byte alone takes bits 15–8 as 0; a read of the upper byte alone clears nothing. -/
def causeCode (returned : Word) (sel : ByteSel) : Nat :=
  let v := match sel with
    | .both => returned.toNat
    | .lower => (lowerByte returned).toNat
    | .upper => 0
  if v ≤ 19 then v else 0

/-- The event codes in order of priority, highest first (R166). -/
def eventCodes : List Nat := [1, 2, 3, 4, 5, 6, 7, 8, 9, 10, 11, 12, 13, 14, 15, 16, 17, 18, 19]

/-- The internal cause: the lowest code both pending and enabled, or 0 (R168). -/
def State.cause (s : State) : Nat :=
  (eventCodes.find? fun c => (s.events &&& s.settings.enables).getLsbD (c - 1)).getD 0

/-- IRQ# is asserted (R174): the last-written cause is nonzero and names an event pending and enabled, outside reset. -/
def State.irqAsserted (s : State) : Bool :=
  s.phase == .running && s.lastCause != 0 && (s.events &&& s.settings.enables).getLsbD (s.lastCause - 1)

/-! ### Status words (R171, section 10.6) -/

/-- The offset of the i-th status word: 80h–88h, then 90h–AFh. -/
def statusOffset (i : Nat) : Nat := if i < 9 then 0x80 + i else 0x90 + (i - 9)

/-- The index of the cause word, offset 83h. -/
def causeIndex : Nat := 3

def deviceStatusWord (s : State) : Word :=
  BitVec.ofNat 16 (s.mode.code + (if s.frozen then 4 else 0) + (if s.armed then 8 else 0)
    + (if s.engine = .idle then 0 else 16) + 32 * s.resetCause.code + 256 * s.strap.toNat)

def lockSummaryWord (s : State) : Word :=
  BitVec.ofNat 16 (s.locks.length
    + (if s.slots.e0.isSome then 0x100 else 0) + (if s.slots.e1.isSome then 0x200 else 0)
    + (if s.slots.e2.isSome then 0x400 else 0) + (if s.slots.e3.isSome then 0x800 else 0))

/-- Word 0 of a lane status record (section 10.6.6). -/
def laneStateWord (l : Lane) : Word :=
  BitVec.ofNat 16 (l.state.code + (if l.stopAtCycleEnd then 0x100 else 0) + (if l.stopAtStepEnd then 0x200 else 0)
    + (if l.startOwed then 0x400 else 0) + (if l.triggerLatch then 0x800 else 0) + (if l.loaded then 0x1000 else 0))

/-- Word 7 of a lane status record: window and record of the held entry, FFFFh when the slot is empty (R53). -/
def slotWord : Option HoldEntry → Word
  | some e => BitVec.ofNat 16 (e.window.val * 0x1000 + e.record)
  | none => 0xFFFF

/-- Word j of the status record of a lane and its slot (R128). -/
def laneStatusWord (l : Lane) (slot : Option HoldEntry) (j : Nat) : Word :=
  match j with
  | 0 => laneStateWord l
  | 1 => BitVec.ofNat 16 l.stepIndex.val
  | 2 => l.cycleCount
  | 3 => BitVec.ofNat 16 l.lastError.code.code
  | 4 => BitVec.ofNat 16 l.lastError.step.val
  | 5 => l.lastError.node.setWidth 16
  | 6 => l.nodeStatus.setWidth 16
  | _ => slotWord slot

/-- The internal value of the i-th status word (R171). -/
def State.statusValue (s : State) (i : Nat) : Word :=
  match i with
  | 0 => deviceStatusWord s
  | 1 => joinBytes s.result.code s.result.outcome.code
  | 2 => s.result.detail
  | 3 => BitVec.ofNat 16 s.cause
  | 4 => s.events.extractLsb' 0 16
  | 5 => (s.events.extractLsb' 16 3).setWidth 16
  | 6 => s.guardAddr.extractLsb' 0 16
  | 7 => (s.guardAddr.extractLsb' 16 4).setWidth 16
  | 8 => lockSummaryWord s
  | _ =>
    let n : Fin 4 := ⟨(i - 9) / 8 % 4, by omega⟩
    laneStatusWord (s.lane n) (s.slots.get n) ((i - 9) % 8)

/-- What the status writer keeps for the i-th word. -/
def State.statusSlot (s : State) (i : Nat) : StatusSlot := s.status.getD i { written := 0, forced := false }

/-- The i-th word has been marked stale since it was last written: one of the two result words by a result (R150, R151), one of
the two guard address words by a blocked write (R133). -/
def State.marked (s : State) (i : Nat) : Bool :=
  match i with
  | 1 => s.resultMarked
  | 2 => s.detailMarked
  | 6 => s.guardLowMarked
  | 7 => s.guardHighMarked
  | _ => false

/-- The forced flag of the i-th word (R171): set by a reset, of a result word by a result and of a guard address word by a blocked
write, which mark them stale as R163's stage 2 marks every word (DEDUCED, unsafe; log entries 23 and 26). The causes are kept
apart because SOFT RESET waits for the first alone. -/
def State.forced (s : State) (i : Nat) : Bool := (s.statusSlot i).forced || s.marked i

/-- The i-th word is stale: its internal value differs from the value last written, or its forced flag is set (R171). -/
def State.stale (s : State) (i : Nat) : Bool := s.forced i || s.statusValue i != (s.statusSlot i).written

/-- The order in which the status writer looks from the sweep position (R172). -/
def sweepOrder (sweep : Nat) : List Nat := (List.range statusWords).map fun i => (sweep + i) % statusWords

/-- The word the status writer chooses at a grant (R172): the cause word when it is stale, else the first stale word at or
after the sweep position, going round. None when no word is stale, and then no claim is placed. -/
def State.statusChoice (s : State) : Option Nat :=
  if s.stale causeIndex then some causeIndex else (sweepOrder s.sweep).find? s.stale

end Sys2Proof.Machine
end

