-- ==== Sys2Proof/Machine/Ops.lean ====
section
/-! DEFINITION. The named operations over memory, lanes, sets and the arbiter that the meanings share. -/

namespace Sys2Proof.Machine

/-! ### Memory (log entry 4) -/

namespace Memory

/-- The number of byte keys: two for each of the 1 Mi words. -/
def keys : Nat := 2097152

/-- The byte at a key; an unlisted key reads as Config.unlistedByte. -/
def readByte : List Host.Cell → Nat → Byte
  | [], _ => Config.unlistedByte
  | (a, b) :: rest, k => if k = a then b else if k < a then Config.unlistedByte else readByte rest k

/-- Writes a byte and keeps the canonical form: keys strictly rising, none listed that reads as an unlisted one. -/
def writeByte : List Host.Cell → Nat → Byte → List Host.Cell
  | [], k, v => if v = Config.unlistedByte then [] else [(k, v)]
  | (a, b) :: rest, k, v =>
    if k < a then (if v = Config.unlistedByte then (a, b) :: rest else (k, v) :: (a, b) :: rest)
    else if k = a then (if v = Config.unlistedByte then rest else (k, v) :: rest)
    else (a, b) :: writeByte rest k v

/-- The canonical form from a lower bound on: keys rising, within the address space, no byte equal to the unlisted one. -/
def wfFrom : Nat → List Host.Cell → Bool
  | _, [] => true
  | lo, (a, b) :: rest => decide (lo ≤ a) && decide (a < keys) && b != Config.unlistedByte && wfFrom (a + 1) rest

/-- The canonical form of memory. -/
def wf (m : List Host.Cell) : Bool := wfFrom 0 m

/-- The key of the lower byte of a word; the upper byte's is one more. -/
def lowerKey (a : Addr) : Nat := 2 * a.toNat

def upperKey (a : Addr) : Nat := 2 * a.toNat + 1

/-- The word at an address. -/
def readWord (m : List Host.Cell) (a : Addr) : Word := joinBytes (readByte m (upperKey a)) (readByte m (lowerKey a))

/-- Writes the bytes an access enables (R130). -/
def writeSel (m : List Host.Cell) (a : Addr) (w : Word) (sel : ByteSel) : List Host.Cell :=
  let m := if selLower sel then writeByte m (lowerKey a) (lowerByte w) else m
  if selUpper sel then writeByte m (upperKey a) (upperByte w) else m

/-- A bridge access is a word access (R137). -/
def writeWord (m : List Host.Cell) (a : Addr) (w : Word) : List Host.Cell := writeSel m a w .both

/-- Writes the words of a burst in order. -/
def writeAll (m : List Host.Cell) (writes : List (Addr × Word)) : List Host.Cell :=
  writes.foldl (fun m p => writeWord m p.1 p.2) m

/-- The four words from an address on, as one 4-word burst reads them. -/
def readQuad (m : List Host.Cell) (a : Addr) : Quad :=
  { w0 := readWord m a, w1 := readWord m (a + 1), w2 := readWord m (a + 2), w3 := readWord m (a + 3) }

end Memory

/-! ### Lanes -/

def State.setLane (s : State) (n : Fin 4) (l : Lane) : State := { s with lanes := s.lanes.set n l }

/-- The step copy, checked as R83 and R84 do; none when there is no step or it is BAD_STEP. -/
def Lane.currentStep (l : Lane) : Option Step :=
  match l.step with
  | some q => decodeStep q l.startMode
  | none => none

/-- The selection of the SEND or FETCH step in hand. -/
def Lane.selection (l : Lane) : Option Selection :=
  match l.currentStep with
  | some (.send _ sel) => some sel
  | some (.fetch _ sel) => some sel
  | _ => none

/-! ### Changed sets (chapter 2) -/

/-- Adds an index to a set kept in ascending order; an index already there changes nothing (R16). -/
def insertIndex (k : Nat) : List Nat → List Nat
  | [] => [k]
  | x :: rest => if k < x then k :: x :: rest else if k = x then x :: rest else x :: insertIndex k rest

/-- Removes an index; one that is not a member changes nothing (R16). -/
def removeIndex (k : Nat) (set : List Nat) : List Nat := set.filter fun x => x != k

/-- Adds k to the set of window w when w is a tracked mirror window (R17, R20, R21). -/
def State.addChanged (s : State) (w : Fin 16) (k : Nat) : State :=
  if (s.window w).tracked then { s with changed := Sixteen.set s.changed w (insertIndex k (s.changedSet w)) } else s

/-- Takes k out of the set of window w (R18); a window without a set has none to take it from. -/
def State.removeChanged (s : State) (w : Fin 16) (k : Nat) : State :=
  if (s.window w).tracked then { s with changed := Sixteen.set s.changed w (removeIndex k (s.changedSet w)) } else s

/-- Fills the sets of the tracked windows that `which` selects with every index (R23, R24). -/
def State.fillSets (s : State) (which : Fin 16 → Bool) : State :=
  { s with changed := Sixteen.ofFn fun w =>
      if (s.window w).tracked && which w then List.range (s.window w).count else s.changedSet w }

/-- Empties every changed set (R26). -/
def State.emptySets (s : State) : State := { s with changed := Sixteen.replicate [] }

/-! ### The memory port arbiter (R136 to R141) -/

/-- A source of bridge claims (R136). -/
inductive Source where
  | commit (n : Fin 4)
  | drain (n : Fin 4)
  | capture (n : Fin 4)
  | fetch (n : Fin 4)
  | table
  | status
deriving DecidableEq, Repr

/-- The ten placers of claims (R136): lane controllers 0–3, hold slots 4–7, the command engine 8, the status writer 9. -/
def Source.placer : Source → Nat
  | .commit n | .capture n | .fetch n => n.val
  | .drain n => 4 + n.val
  | .table => 8
  | .status => 9

def BurstUser.placer : BurstUser → Nat
  | .commit n | .capture n | .fetch n => n.val
  | .drain n => 4 + n.val
  | .tableRead => 8
  | .status => 9

/-- A load of the command engine is reading (R10, R160). -/
def State.tableClaim (s : State) : Bool :=
  match s.engine with
  | .executing (.loadSettings _) => true
  | .executing (.loadWindows _) => true
  | _ => false

/-- A source has a claim waiting (R136): not while its placer's burst holds the port, and not while a reset holds the part
(R131). The status writer claims while some word is stale (R172). -/
def State.claims (s : State) (src : Source) : Bool :=
  s.phase == .running && !(s.port.any fun b => b.user.placer == src.placer) &&
  match src with
  | .commit n => (match (s.lane n).work with | .commitClaim _ => true | _ => false)
  | .drain n => s.drains.get n
  | .capture n => (s.lane n).work == .captureClaim
  | .fetch n => (s.lane n).work == .fetchClaim
  | .table => s.tableClaim
  | .status => s.statusChoice.isSome

/-- The ring of class 1 (R138). -/
def commitRing : List Source :=
  [.commit 0, .drain 0, .commit 1, .drain 1, .commit 2, .drain 2, .commit 3, .drain 3]

/-- The ring of class 2. -/
def captureRing : List Source := [.capture 0, .capture 1, .capture 2, .capture 3]

/-- The ring of class 3. -/
def fetchRing : List Source := [.fetch 0, .fetch 1, .fetch 2, .fetch 3]

/-- The first source with a claim waiting, from the pointer and going round the ring (R138). -/
def State.firstFrom (s : State) (ptr : Nat) (ring : List Source) : Option Source :=
  (ring.drop ptr ++ ring.take ptr).find? s.claims

/-- The claim of the highest class that waits (R137), chosen in its ring (R138). -/
def State.bridgeChoice (s : State) : Option Source :=
  (s.firstFrom s.arbiter.commitPtr.val commitRing).or <|
  (s.firstFrom s.arbiter.capturePtr.val captureRing).or <|
  (s.firstFrom s.arbiter.fetchPtr.val fetchRing).or <|
  (s.firstFrom s.arbiter.tablePtr.val [.table]).or <|
  s.firstFrom s.arbiter.statusPtr.val [.status]

/-- Some bridge claim waits. -/
def State.claimWaiting (s : State) : Bool := s.bridgeChoice.isSome

/-- The bridge claim the arbiter grants now (R140): the port is free, and no processor access waits or the fairness count
stands at 4. -/
def State.grantable (s : State) : Option Source :=
  if s.port.isNone && (s.upstream.isNone || decide (Config.fairnessLimit ≤ s.arbiter.fairness)) then s.bridgeChoice
  else none

/-- A processor access is granted now (R140): the port is free, and no claim waits or the fairness count is below 4. -/
def State.accessGrantable (s : State) : Bool :=
  s.port.isNone && (!s.claimWaiting || decide (s.arbiter.fairness < Config.fairnessLimit))

/-- The fairness count after the grant of a processor access (R140). -/
def State.countAccess (s : State) : State :=
  { s with arbiter := { s.arbiter with fairness := if s.claimWaiting then s.arbiter.fairness + 1 else 0 } }

/-- The pointer of the source's class moves to the source that follows it (R138), and the fairness count is cleared (R140). -/
def Arbiter.served (a : Arbiter) : Source → Arbiter
  | .commit n => { a with commitPtr := ⟨2 * n.val + 1, by omega⟩, fairness := 0 }
  | .drain n => { a with commitPtr := ⟨(2 * n.val + 2) % 8, by omega⟩, fairness := 0 }
  | .capture n => { a with capturePtr := n + 1, fairness := 0 }
  | .fetch n => { a with fetchPtr := n + 1, fairness := 0 }
  | .table => { a with fairness := 0 }
  | .status => { a with fairness := 0 }

/-- Books the grant of a bridge claim. -/
def State.countGrant (s : State) (src : Source) : State := { s with arbiter := s.arbiter.served src }

/-- A burst takes the port. -/
def State.holdPort (s : State) (user : BurstUser) (length : Nat) (writes : List (Addr × Word)) : State :=
  { s with port := some { user := user, length := length, writes := writes, done := 0 } }

/-- The burst ends without a row of its own: a step fetch or a status write. -/
def BurstUser.endsItself : BurstUser → Bool
  | .fetch _ | .status => true
  | .capture _ | .commit _ | .drain _ | .tableRead => false

/-- A grant comes at a free port: a step fetch or status write that held it has ended by then (log entry 7). -/
def State.atGrant (s : State) : State :=
  { s with port := s.port.filter fun b => !b.user.endsItself }

/-- The burst on the port ends: the words it writes are in memory (R139) and the port is free. -/
def State.endBurst (s : State) : State :=
  match s.port with
  | some b => { s with mem := Memory.writeAll s.mem b.writes, port := none }
  | none => s

end Sys2Proof.Machine
end

