-- ==== Sys2Proof/Machine/LinkEngine.lean ====
section
/-! DEFINITION. The link engine of a lane (chapter 4): beginning, ending and cutting a call, the pins, and how a unit of time
passes in it. -/

namespace Sys2Proof.Machine

/-! ### Calls -/

/-- The call begins (R62): divider and timeout in use are copied, the engine enters SEND with the header. -/
def Link.begun (c : Call) (settings : LaneSettings) : Link :=
  { engine := .send, divider := settings.divider, timeout := settings.replyTimeout, call := some c, request := none,
    bit := 0, sub := 0, pause := 0, held := false, received := [], reply := none, expected := 0, taken := 0,
    dataBad := false }

/-- A call of the lane begins: the received count is cleared and the engine sends (R62). -/
def Lane.beginCall (l : Lane) (c : Call) : Lane := { l with inbound := [], link := Link.begun c l.settings }

/-- The engine can begin a call at once: it is IDLE and its pause has passed (R62). -/
def Link.canBegin (l : Link) : Bool := l.engine == .idle && l.pause == 0

/-- The lane requests a call of its link engine (R62): it begins at once when the engine can, and otherwise the request waits for
its CALL_BEGIN, on the pause or on the mark. -/
def Lane.requestCall (l : Lane) (c : Call) : Lane :=
  let called := { l with work := .calling }
  if l.link.canBegin then called.beginCall c else { called with link := { l.link with request := some c } }

/-- The call or the mark ends: IDLE, and a pause of one bit time begins (R57, R70). The bits of the last word, a bad one's too, are
dropped here (R60 does not say how long they are kept: DESIGN CHOICE, safe; log entry 25). -/
def Link.toIdle (l : Link) : Link :=
  { l with engine := .idle, call := none, bit := 0, sub := 0, pause := l.divider, held := false, received := [],
           reply := none, expected := 0, taken := 0, dataBad := false }

/-- The engine waits for a data word, of which `taken` have been received (R67). The bits of the word before, a bad one's too, are
dropped here (DESIGN CHOICE, safe; log entry 25). -/
def Link.awaitData (l : Link) : Link := { l with engine := .dataWait, bit := 0, sub := 0, received := [] }

/-- A reply can still be heard: the call is under way, has no reply yet and is no broadcast (R60, R69). -/
def Link.awaitsReply (l : Link) : Bool :=
  match l.engine with
  | .send | .turnaround | .replyWait | .reply => (match l.call with | some c => !c.isBroadcast | none => false)
  | .idle | .dataWait | .data | .tail | .mark => false

/-- The reply wait can still time out: no start bit has been seen (R64). -/
def Link.replyCanTimeOut (l : Link) : Bool := l.awaitsReply && l.engine != .reply

/-- A data word of a GET is being waited for or received (R67). -/
def Link.awaitsData (l : Link) : Bool :=
  match l.engine with
  | .dataWait | .data => l.call.isSome
  | .idle | .send | .turnaround | .replyWait | .reply | .tail | .mark => false

/-- A broadcast is under way (R69). -/
def Link.inBroadcast (l : Link) : Bool :=
  match l.engine with
  | .send | .tail => (match l.call with | some c => c.isBroadcast | none => false)
  | .idle | .turnaround | .replyWait | .reply | .dataWait | .data | .mark => false

/-- The outcome drawn from the reply word of a PUT or CTL (R65). -/
def replyOutcome (w : Word) (good : Bool) : CallOutcome :=
  if !good then .parity else if !replyAccept w then .notAccepted else if replyFault w then .nodeFault else .ok

/-- The outcome of a GET that has taken all its data words (R68). -/
def getOutcome (reply : Word) (c : Call) (dataBad : Bool) : CallOutcome :=
  if dataBad then .parity
  else if c.exact && decide (replyAvail reply < c.requested) then .short
  else if replyFault reply then .nodeFault else .ok

/-! ### Pins (R57, R59, R69, R71) -/

/-- The levels LDOn takes through the words of a call. -/
def sentBits (c : Call) : List Bool := c.sent.flatMap frame

/-- The level of LDOn. -/
def Link.ldo (l : Link) : Bool :=
  match l.engine with
  | .send => (match l.call with | some c => (sentBits c).getD l.bit false | none => false)
  | .mark => if l.bit = 0 then l.held else true
  | .idle | .turnaround | .replyWait | .reply | .dataWait | .data | .tail => false

/-- The level of LCKn: low in IDLE; else low for the first half of a bit time and high for the second (R57). -/
def Link.lck (l : Link) : Bool := l.engine != .idle && decide (l.divider ≤ 2 * l.sub)

/-- LDIn is sampled (R58). -/
def Link.samples (l : Link) : Bool :=
  match l.engine with
  | .replyWait | .reply | .dataWait | .data => true
  | .idle | .send | .turnaround | .tail | .mark => false

/-- The level of LFLn (R74, R75): low while a reset holds the part, else the inactive level of the polarity, inverted while a
pulse is active. -/
def State.lfl (s : State) (n : Fin 4) : Bool :=
  s.phase == .running && xor (s.lane n).settings.activeLow (s.lane n).pulseTimer.isSome

/-! ### Cutting a call (R71 to R73) -/

/-- A call in progress is cut and the abort mark driven, after the bit time then in progress; a waiting request is withdrawn.
With no call in progress the engine goes on as it is. A request that has waited on the pause waits until its CALL_BEGIN: a cut
that the queue has before it withdraws it, with no mark, even when the pause has just passed (DESIGN CHOICE, safe; log entry 24).
-/
def Link.cut (l : Link) (settings : LaneSettings) : Link :=
  if l.call.isSome then
    { engine := .mark, divider := settings.divider, timeout := settings.replyTimeout, call := none, request := none,
      bit := 0, sub := l.sub, pause := 0, held := l.ldo, received := [], reply := none, expected := 0, taken := 0,
      dataBad := false }
  else { l with request := none }

/-! ### Time in the engine -/

/-- The end of a bit time: the engine goes on through its states (R63, R67, R69, R71); `level` is the sample of LDIn. -/
def Link.endBit (l : Link) (level : Bool) : Link :=
  match l.engine with
  | .idle => l
  | .send =>
    match l.call with
    | some c =>
      if l.bit + 1 < Config.wordBits * c.sent.length then { l with bit := l.bit + 1 }
      else if c.isBroadcast then { l with engine := .tail, bit := 0 } else { l with engine := .turnaround, bit := 0 }
    | none => l
  | .turnaround =>
    if l.bit + 1 < Config.turnaroundBits then { l with bit := l.bit + 1 } else { l with engine := .replyWait, bit := 0 }
  | .replyWait =>
    if level then { l with engine := .reply, bit := 0, received := [] } else { l with bit := l.bit + 1 }
  | .dataWait =>
    if level then { l with engine := .data, bit := 0, received := [] } else { l with bit := l.bit + 1 }
  | .reply => { l with bit := l.bit + 1, received := l.received ++ [level] }
  | .data => { l with bit := l.bit + 1, received := l.received ++ [level] }
  | .tail => { l with bit := l.bit + 1 }
  | .mark => { l with bit := l.bit + 1 }

/-- The present bit time ends with the coming unit of time. -/
def Link.bitEnds (l : Link) : Bool := l.engine != .idle && decide (l.divider ≤ l.sub + 1)

/-- One unit of 62.5 ns passes; a bit time is `divider` units (R56). -/
def Link.advance (l : Link) (level : Bool) : Link :=
  if l.engine = .idle then { l with pause := l.pause - 1 }
  else if l.bitEnds then ({ l with sub := 0 } : Link).endBit level else { l with sub := l.sub + 1 }

end Sys2Proof.Machine
end

