-- ==== Sys2Proof/Machine/LockUnit.lean ====
section
/-! DEFINITION. The lock unit's operations (chapter 3): creating and ending locks, drain claims. -/

namespace Sys2Proof.Machine

/-- A lock table entry names record k of window w. -/
def LockEntry.names (l : LockEntry) (w : Fin 16) (k : Nat) : Bool := l.window == w && l.record == k

/-- Record k of window w is locked (R30). -/
def State.locked (s : State) (w : Fin 16) (k : Nat) : Bool := s.locks.any fun l => l.names w k

/-- A hold slot holds an entry for record k of window w. -/
def slotHolds (slot : Option HoldEntry) (w : Fin 16) (k : Nat) : Bool :=
  match slot with
  | some e => e.window == w && e.record == k
  | none => false

/-- Every slot that holds an entry for the released record has its drain claim placed (R47). -/
def State.claimDrains (s : State) (w : Fin 16) (k : Nat) : State :=
  { s with drains := Four.ofFn fun n => s.drains.get n || slotHolds (s.slots.get n) w k }

/-- The entry for record k of window w leaves the lock table and a held entry claims a drain (R33 to R35). -/
def State.releaseLock (s : State) (w : Fin 16) (k : Nat) : State :=
  { s with locks := s.locks.filter fun l => !l.names w k }.claimDrains w k

/-- Every lock is released without an event and every occupied slot claims a drain (R36). -/
def State.releaseAll (s : State) : State :=
  { s with locks := [], drains := Four.ofFn fun n => s.drains.get n || (s.slots.get n).isSome }

/-- The oldest entry is evicted when the table is full (R33): LOCKDROP, and a held entry claims a drain. -/
def State.evictIfFull (s : State) : State :=
  match s.locks with
  | oldest :: _ =>
    if Config.lockCapacity ≤ s.locks.length then (s.releaseLock oldest.window oldest.record).raise .lockDrop else s
  | [] => s

/-- A first-word read of record k of window w (R32): an unlocked record is locked as the newest entry, with the lock time of
the settings copy (R31); a locked one is left as it is. -/
def State.createLock (s : State) (w : Fin 16) (k : Nat) : State :=
  if s.locked w k then s
  else
    let t := s.evictIfFull
    { t with locks := t.locks ++
        [{ window := w, record := k, remaining := t.settings.lockTime * Config.unitsPerLockStep }] }

/-- A stamp read of record k of window w (R34): the normal release; no effect on an unlocked record. -/
def State.stampRelease (s : State) (w : Fin 16) (k : Nat) : State :=
  if s.locked w k then s.releaseLock w k else s

/-- The expiry of the lock on record k of window w (R35). -/
def State.expireLock (s : State) (w : Fin 16) (k : Nat) : State :=
  if s.locked w k then (s.releaseLock w k).raise .lockDrop else s

/-- The words a commit or drain of an entry writes (R42): the data words in ascending order, then the stamp at size − 1. -/
def State.entryWrites (s : State) (e : HoldEntry) : List (Addr × Word) :=
  let win := s.window e.window
  (e.data.zipIdx.map fun p => (win.wordAddr e.record p.2, p.1)) ++ [(win.wordAddr e.record (win.size - 1), e.stamp.word)]

/-- The entry with REPLACED set in its stamp (R43). -/
def HoldEntry.asReplacement (e : HoldEntry) : HoldEntry := { e with stamp := { e.stamp with replaced := true } }

/-- Lane n's slot takes an entry. -/
def State.fillSlot (s : State) (n : Fin 4) (e : HoldEntry) : State := { s with slots := s.slots.set n (some e) }

/-- The entry and the drain claim of lane n's slot are gone (R43, R49). -/
def State.dropSlot (s : State) (n : Fin 4) : State :=
  { s with slots := s.slots.set n none, drains := s.drains.set n false }

/-- What a slot's emptying does to its lane (R45): a HOLDING lane returns to RUNNING and claims the commit again. -/
def State.retryHeld (s : State) (n : Fin 4) : State :=
  let l := s.lane n
  match l.state, l.work with
  | .holding, .heldBack e => s.setLane n { l with state := .running, work := .commitClaim e }
  | _, _ => s

end Sys2Proof.Machine
end

