-- ==== Sys2Proof/Machine/LaneControl.lean ====
section
/-! DEFINITION. Lane control (chapter 6): cycle starts and ends, entry into STOPPED and FAULTED, the cut of a lane's work. -/

namespace Sys2Proof.Machine

/-! ### Coming to rest (R124, R125) -/

/-- What every entry into STOPPED or FAULTED clears: the flags, the start mode, the timers, the pulse, the work in hand. -/
def Lane.restAs (l : Lane) (state : LaneState) : Lane :=
  { l with state := state, startMode := .none, stopAtCycleEnd := false, stopAtStepEnd := false, startOwed := false,
           triggerLatch := false, work := .none, delayTimer := none, periodTimer := none, pulseTimer := none }

/-- The lane enters STOPPED (R124); `done` says whether the cause raises DONE(n). -/
def State.enterStopped (s : State) (n : Fin 4) (done : Bool) : State :=
  let t := s.setLane n ((s.lane n).restAs .stopped)
  if done then t.raise (.done n) else t

/-- The lane enters FAULTED and FAULT(n) is raised (R125). -/
def State.enterFaulted (s : State) (n : Fin 4) : State :=
  (s.setLane n ((s.lane n).restAs .faulted)).raise (.fault n)

/-- A structural fault (R86): the last-error fields name the code, the step and no node (FFh). -/
def State.structuralFault (s : State) (n : Fin 4) (code : ErrorCode) (step : Fin 64) : State :=
  (s.setLane n { s.lane n with lastError := { code := code, step := step, node := 0xFF } }).enterFaulted n

/-! ### Fetching and cycle starts (R80 to R82, R115) -/

/-- The lane needs step `index`: with budget left the fetch claim is placed; with 256 steps fetched it faults RUNAWAY (R81). -/
def State.placeFetch (s : State) (n : Fin 4) (index : Fin 64) : State :=
  let l := s.lane n
  if l.stepCount < Config.stepBudget then
    s.setLane n { l with stepIndex := index, stepCount := l.stepCount + 1, work := .fetchClaim }
  else (s.setLane n { l with stepIndex := index }).structuralFault n .runaway index

/-- A cycle start (R115). -/
def State.startCycle (s : State) (n : Fin 4) : State :=
  let l := s.lane n
  (s.setLane n { l with cycleCount := l.cycleCount + 1, stepCount := 0, state := .running }).placeFetch n 0

/-- A step has ended and `next` is the index that follows (R82). The stop flag is seen first (R121); a next index of 64 faults
BAD_STEP at step 63. DEDUCED order, unsafe; log entry 13. -/
def State.nextStep (s : State) (n : Fin 4) (next : Nat) : State :=
  if (s.lane n).stopAtStepEnd then s.enterStopped n true
  else if h : next < 64 then s.placeFetch n ⟨next, h⟩
  else s.structuralFault n .badStep 63

/-- A SEND, FETCH, INLINE, PULSE or WAIT step has ended (R82). -/
def State.endStep (s : State) (n : Fin 4) : State := s.nextStep n ((s.lane n).stepIndex.val + 1)

/-- The cycle ends at END (R116). -/
def State.endCycle (s : State) (n : Fin 4) : State :=
  let l := s.lane n
  if l.stopAtCycleEnd || l.stopAtStepEnd then s.enterStopped n true
  else if l.startMode = .once then s.enterStopped n true
  else if l.startOwed then (s.setLane n { l with startOwed := false }).startCycle n
  else s.setLane n { l with state := .waiting, work := .none }

/-! ### Cutting a lane's work (R21, R71, R104) -/

/-- The mirror record that a cut owes to its changed set: captured, its PUT call waiting or in progress (R21). No capture
burst is in progress at a cut (R139). -/
def Lane.owedRecord (l : Lane) : Option (Fin 16 × Nat) :=
  match l.work, l.currentStep with
  | .calling, some (.send _ sel) => some (sel.window, l.position)
  | _, _ => none

/-- The lane's program work ends at once (R104): claims are withdrawn, an entry in the inbound buffer is discarded, a wait
ends without consuming the latch, a call is cut with the abort mark or its request withdrawn. `addBack` is the addition of R21,
which GO OFFLINE does not make (R22). A pulse runs on here. -/
def State.cutWork (s : State) (n : Fin 4) (addBack : Bool) : State :=
  let l := s.lane n
  let t := s.setLane n { l with work := .none, delayTimer := none, outbound := [], inbound := [],
                                link := l.link.cut l.settings }
  if addBack then (match l.owedRecord with | some (w, k) => t.addChanged w k | none => t) else t

/-- ABORT n and GO OFFLINE on one lane (R122, R123): an active lane is cut and stops without an event. -/
def State.cutLane (s : State) (n : Fin 4) (addBack : Bool) : State :=
  if (s.lane n).active then (s.cutWork n addBack).enterStopped n false else s

/-! ### Starting a lane (R110 to R114) -/

/-- The start mode START CONTINUOUS sets (R110): by the cycle source of the settings copy. -/
def Lane.continuousMode (l : Lane) : StartMode := if l.settings.triggerSource then .trigger else .period

/-- A full period in units of time (R112). -/
def Lane.periodUnits (l : Lane) : Nat := l.settings.period * Config.unitsPerPeriodStep

/-- The run begins as R110 gives: flags cleared, start mode set, tracked sets of the lane filled, and the first cycle begun at
once unless the mode is TRIGGER (R111 to R113). -/
def State.beginRun (s : State) (n : Fin 4) (mode : StartMode) : State :=
  let l := s.lane n
  let t := s.setLane n
    { l with stopAtCycleEnd := false, stopAtStepEnd := false, startOwed := false, triggerLatch := false,
             startMode := mode, work := .none, delayTimer := none,
             periodTimer := if mode = .period then some l.periodUnits else none,
             state := if mode = .trigger then .waiting else l.state }
  let t := t.fillSets fun w => (t.window w).lane == n
  if mode = .trigger then t else t.startCycle n

/-- START taken for a lane that may be started: a restart first cuts its work (R114). -/
def State.startLane (s : State) (n : Fin 4) (mode : StartMode) : State :=
  let t := if (s.lane n).active then s.cutWork n true else s
  t.beginRun n mode

end Sys2Proof.Machine
end

