-- ==== Sys2Proof/Machine/LaneProgram.lean ====
section
/-! DEFINITION. Lane programs (chapter 5): carrying out a fetched step, taking records, applying call outcomes, resolving
commits. -/

namespace Sys2Proof.Machine

/-! ### Requesting calls (R62) -/

/-- Lane n requests a call of its link engine, which begins at once or waits. -/
def State.requestCall (s : State) (n : Fin 4) (c : Call) : State := s.setLane n ((s.lane n).requestCall c)

/-- The words a GET for the lane's step requests: size − 1 of the window entry copy (R93). -/
def Lane.getCount (l : Lane) : Nat :=
  match l.entry with
  | some e => e.size - 1
  | none => 0

/-! ### Taking records (R90, R93) -/

/-- A SEND step comes to record k. Without changed-only, and for a member of the changed set, the capture claim is placed; a
record that is not a member is passed over at once, and when none is left the step ends (R19, R90). With *stop at step end* set
the step ends after the record passed over (R92). -/
def State.takeSend (s : State) (n : Fin 4) (changedOnly : Bool) (sel : Selection) (k : Nat) : State :=
  let l := s.lane n
  if changedOnly then
    let span := if l.stopAtStepEnd then 1 else sel.last + 1 - k
    match (List.range' k span).find? fun i => (s.changedSet sel.window).contains i with
    | some i => s.setLane n { l with position := i, work := .captureClaim }
    | none => (s.setLane n { l with position := sel.last }).endStep n
  else s.setLane n { l with position := k, work := .captureClaim }

/-- A FETCH step takes record k: the inbound buffer is cleared and the GET call requested (R93). -/
def State.takeFetch (s : State) (n : Fin 4) (exact : Bool) (sel : Selection) (k : Nat) : State :=
  let l := s.lane n
  (s.setLane n { l with position := k, inbound := [] }).requestCall n
    { verb := .get, node := sel.nodeOf k, words := [], requested := l.getCount, exact := exact }

/-- The handling of the record at the position has ended without a fault (R92, R96): the step ends at this boundary when the
lane is to stop or this was the last record; otherwise the next record is taken. -/
def State.recordDone (s : State) (n : Fin 4) : State :=
  let l := s.lane n
  match l.currentStep with
  | some (.send changedOnly sel) =>
    if l.stopAtStepEnd || decide (sel.last ≤ l.position) then s.endStep n
    else s.takeSend n changedOnly sel (l.position + 1)
  | some (.fetch exact sel) =>
    if l.stopAtStepEnd || decide (sel.last ≤ l.position) then s.endStep n
    else s.takeFetch n exact sel (l.position + 1)
  | _ => s.endStep n

/-- The commit of an entry is resolved (R44, R96): under HALT a failed call now faults the lane. No rule says what the inbound
buffer holds from here on; the model empties it (DESIGN CHOICE, safe; log entry 22). -/
def State.commitResolved (s : State) (n : Fin 4) (e : HoldEntry) : State :=
  let t := s.setLane n { s.lane n with inbound := [] }
  if e.stamp.outcome.isFailure && (t.lane n).settings.halt then t.enterFaulted n else t.recordDone n

/-! ### Checking and carrying out a step (R83 to R86, R97 to R103) -/

/-- The checks of R85 on a SEND or FETCH step against the window it names. -/
def selectionFits (e : WindowEntry) (n : Fin 4) (kind : WindowKind) (sel : Selection) : Bool :=
  e.used && e.kind == kind && e.lane == n && decide (sel.first + sel.count ≤ e.count)
  && (sel.node == 63 || decide (sel.node.toNat + sel.count - 1 ≤ 62))

/-- The checked step of a step record for lane n; none is BAD_STEP (R83, R84, R85). -/
def State.checkedStep (s : State) (n : Fin 4) (q : Quad) : Option Step :=
  match decodeStep q (s.lane n).startMode with
  | some (.send changedOnly sel) =>
    if selectionFits (s.window sel.window) n .mirror sel && (!changedOnly || (s.window sel.window).option) then
      some (.send changedOnly sel)
    else none
  | some (.fetch exact sel) =>
    if selectionFits (s.window sel.window) n .feed sel then some (.fetch exact sel) else none
  | other => other

/-- A pulse starts, or the width of one already active starts again (R76). -/
def Lane.pulsed (l : Lane) : Lane := { l with pulseTimer := some (l.settings.pulseWidth * Config.unitsPerMicrosecond) }

/-- A fetched step is carried out (R89, R93, R97 to R103). -/
def State.carryOut (s : State) (n : Fin 4) : Step → State
  | .send changedOnly sel =>
    (s.setLane n { s.lane n with entry := some (s.window sel.window) }).takeSend n changedOnly sel sel.first
  | .fetch exact sel =>
    (s.setLane n { s.lane n with entry := some (s.window sel.window) }).takeFetch n exact sel sel.first
  | .inline node words =>
    s.requestCall n { verb := .ctl, node := node, words := words, requested := 0, exact := false }
  | .pulse markEvent =>
    let t := s.setLane n (s.lane n).pulsed
    (if markEvent then t.raise (.mark n) else t).endStep n
  | .wait delay =>
    s.setLane n { s.lane n with work := .delay, delayTimer := some (delay * Config.unitsPerMicrosecond) }
  | .waitTrigger =>
    if (s.lane n).triggerLatch then (s.setLane n { s.lane n with triggerLatch := false }).endStep n
    else s.setLane n { s.lane n with work := .triggerWait }
  | .jump target => s.nextStep n target.val
  | .finish => s.endCycle n

/-- The address of step s of a lane (R79). -/
def Lane.stepAddr (l : Lane) : Addr :=
  match l.settings.page with
  | some p => BitVec.ofNat 20 (pageBase p + 4 * l.stepIndex.val)
  | none => 0

/-- The step-fetch burst of lane n (R80): the four words are read, copied, checked and the step carried out, or the lane faults
BAD_STEP (R86). -/
def State.fetchStep (s : State) (n : Fin 4) : State :=
  let l := s.lane n
  let q := Memory.readQuad s.mem l.stepAddr
  let t := s.setLane n { l with step := some q, entry := none, work := .none }
  match t.checkedStep n q with
  | some step => t.carryOut n step
  | none => t.structuralFault n .badStep l.stepIndex

/-! ### Call ends (R70, R87, R88, R91, R94, R95, R97) -/

/-- The error record after a call (R87): the node status when one is handed on, the last-error fields for any outcome but OK. -/
def Lane.recordOutcome (l : Lane) (node : BitVec 6) (outcome : CallOutcome) (status : Option (BitVec 6)) : Lane :=
  { l with
    nodeStatus := status.getD l.nodeStatus
    lastError := if outcome = .ok then l.lastError
      else { code := outcome.errorCode, step := l.stepIndex, node := node.setWidth 8 } }

/-- The stamp and entry of an ended GET (R94, R95): the received words when the outcome keeps them, else stamp-only. -/
def Lane.buildEntry (l : Lane) (w : Fin 16) (outcome : CallOutcome) : HoldEntry :=
  let data := if outcome.isFailure then [] else l.inbound
  { window := w, record := l.position, data := data,
    stamp := { count := data.length, outcome := outcome, replaced := false, tag := l.cycleCount.setWidth 7 } }

/-- A failure of a PUT or CTL under HALT faults the lane at the end of the call; otherwise the record or the step is done
(R88, R91, R97). -/
def State.callHandled (s : State) (n : Fin 4) (outcome : CallOutcome) : State :=
  if outcome.isFailure && (s.lane n).settings.halt then s.enterFaulted n else s.recordDone n

/-- A call of lane n ends with an outcome (R70): the engine goes to IDLE, the error record is set (R87), and the lane goes on
by the verb: a failed PUT puts its record back into the changed set (R20), a GET builds its entry and claims the commit
(R40). -/
def State.endCall (s : State) (n : Fin 4) (c : Call) (outcome : CallOutcome) (status : Option (BitVec 6)) : State :=
  let l := (s.lane n).recordOutcome c.node outcome status
  let l := { l with link := l.link.toIdle, outbound := [] }
  match c.verb, l.selection with
  | .get, some sel =>
    let e := l.buildEntry sel.window outcome
    s.setLane n { l with inbound := e.data, work := .commitClaim e }
  | .put, some sel =>
    let t := s.setLane n l
    (if outcome.isFailure then t.addChanged sel.window l.position else t).callHandled n outcome
  | _, _ => (s.setLane n l).callHandled n outcome

end Sys2Proof.Machine
end

