-- ==== Sys2Proof/Machine/CommandEngine.lean ====
section
/-! DEFINITION. The command engine (chapter 8, and LOAD WINDOWS of chapter 1): checking and carrying out command words, the
long commands and how they finish. -/

namespace Sys2Proof.Machine

/-! ### Results (R150, R151) -/

/-- The result of a command that is answered at once (R150): a change marks both result words stale; a result equal to the one
before leaves both as they stand. -/
def State.setResult (s : State) (code : Byte) (outcome : CommandOutcome) (detail : Word) : State :=
  let r : Result := { code := code, outcome := outcome, detail := detail }
  { s with
    result := r
    resultMarked := if s.result = r then s.resultMarked else true
    detailMarked := if s.result = r then s.detailMarked else true }

/-- The EXECUTING and the final result of a long command: both words are marked stale when it is set (R151). -/
def State.setLongResult (s : State) (code : Byte) (outcome : CommandOutcome) (detail : Word) : State :=
  { s with
    result := { code := code, outcome := outcome, detail := detail }
    resultMarked := true
    detailMarked := true }

/-- A long command is taken: the engine is EXECUTING and the result says so (R151). -/
def State.beginLong (s : State) (long : LongCommand) : State :=
  { s with engine := .executing long }.setLongResult long.code .executing 0

/-- A long command finishes: final result, CMDDONE and IDLE together (R151). -/
def State.finishLong (s : State) (code : Byte) (outcome : CommandOutcome) (detail : Word) : State :=
  ({ s with engine := .idle }.setLongResult code outcome detail).raise .cmdDone

/-! ### What the engine watches -/

/-- Every lane is STOPPED or FAULTED. -/
def State.allAtRest (s : State) : Bool := laneList.all fun n => (s.lane n).atRest

/-- All four hold slots are empty. -/
def State.slotsEmpty (s : State) : Bool := laneList.all fun n => (s.slots.get n).isNone

/-- The lowest-numbered lane that is WAITING, RUNNING or HOLDING. -/
def State.firstActive (s : State) : Option (Fin 4) := laneList.find? fun n => (s.lane n).active

/-- Every status word has been written since it was last forced (R163). -/
def State.noneForced (s : State) : Bool := s.status.all fun w => !w.forced

/-! ### LOAD WINDOWS: check and install (R11, R13, R25) -/

/-- The first check of R11 that a used image entry fails, against the control block, the loaded program areas and the entries
of lower index; none when it passes or is unused. -/
def State.windowFault (s : State) (earlier : List WindowEntry) (q : Quad) : Option CommandOutcome :=
  if q.w3 = 0 then none
  else
    let e := windowOfQuad q
    if e.count > 256 then some .range
    else if !windowZeroBitsOk q then some .range
    else if e.size > 16 || e.size < (if e.kind = .mirror then 1 else 2) then some .range
    else if e.base.toNat + e.length - 1 > 0xFFFFF then some .range
    else if runsOverlap e.base.toNat e.length s.base.toNat 256 then some .overlap
    else if laneList.any fun n =>
        match (s.lane n).settings.page with
        | some p => runsOverlap e.base.toNat e.length (pageBase p) 256
        | none => false
      then some .overlap
    else if earlier.any fun f => f.used && runsOverlap e.base.toNat e.length f.base.toNat f.length then some .overlap
    else none

/-- The first failing entry of an image and its outcome (R11): `earlier` are the entries before it, in order. -/
def State.tableFault (s : State) : List WindowEntry → List Quad → Option (CommandOutcome × Nat)
  | _, [] => none
  | earlier, q :: rest =>
    match s.windowFault earlier q with
    | some outcome => some (outcome, earlier.length)
    | none => s.tableFault (earlier ++ [windowOfQuad q]) rest

/-- The table an image describes. -/
def tableOfImage (image : List Quad) : Sixteen WindowEntry :=
  Sixteen.ofFn fun w => (image.map windowOfQuad).getD w.val WindowEntry.unused

/-- The installation (R13, R25): the 16 entries are replaced; with the table active every lock still there is released without
an event and the tracked windows of the new table get full sets, the others none. -/
def State.installTable (s : State) (table : Sixteen WindowEntry) : State :=
  if s.tableActive then
    { s with table := table, locks := [], changed := Sixteen.ofFn fun w =>
        let e := Sixteen.get table w
        if e.tracked then List.range e.count else [] }
  else { s with table := table, changed := Sixteen.replicate [] }

/-- LOAD WINDOWS after its last burst: the check phase (R11), then release and drain when the table is active (R12) or the
installation at once. -/
def State.checkWindows (s : State) (image : List Quad) : State :=
  match s.tableFault [] image with
  | some (outcome, index) => s.finishLong (Command.code .loadWindows) outcome (BitVec.ofNat 16 index)
  | none =>
    if s.tableActive then { s.releaseAll with engine := .executing (.drainWindows (tableOfImage image)) }
    else (s.installTable (tableOfImage image)).finishLong (Command.code .loadWindows) .done 0

/-! ### LOAD SETTINGS: check and install (R161, R162) -/

/-- The i-th burst of a staging copy. -/
def burstAt (staging : List Quad) (i : Nat) : Quad := staging.getD i { w0 := 0, w1 := 0, w2 := 0, w3 := 0 }

/-- The two bursts that hold the settings image of lane n (R160). -/
def laneBursts (staging : List Quad) (n : Fin 4) : Quad × Quad :=
  (burstAt staging (1 + 2 * n.val), burstAt staging (2 + 2 * n.val))

/-- The range checks of one lane's image: each offset and whether its word is in range (R161). -/
def laneRangeChecks (n : Fin 4) (a b : Quad) : List (Nat × Bool) :=
  let at0 := 0x10 + 8 * n.val
  [(at0, decide (2 ≤ a.w0.toNat) && decide (a.w0.toNat ≤ 255)),
   (at0 + 1, decide (16 ≤ a.w1.toNat) && decide (a.w1.toNat ≤ 1023)),
   (at0 + 2, decide (a.w2.toNat ≤ 4095) || a.w2 == 0xFFFF),
   (at0 + 3, decide (a.w3.toNat < 8)),
   (at0 + 4, decide (1 ≤ b.w0.toNat)),
   (at0 + 5, decide (1 ≤ b.w1.toNat) && decide (b.w1.toNat ≤ 128))]

/-- The range checks of a settings image in ascending offset (R161). -/
def settingsRangeChecks (staging : List Quad) : List (Nat × Bool) :=
  let d := burstAt staging 0
  [(0x04, decide (d.w1.toNat < 8)), (0x05, decide (1 ≤ d.w2.toNat) && decide (d.w2.toNat ≤ 255)),
   (0x06, decide (d.w3.toNat ≤ 1))]
  ++ laneList.flatMap fun n => laneRangeChecks n (laneBursts staging n).1 (laneBursts staging n).2

/-- The offset of the first word out of range. -/
def settingsRangeFault (staging : List Quad) : Option Nat :=
  ((settingsRangeChecks staging).find? fun c => !c.2).map fun c => c.1

/-- The settings copy lane n would get. -/
def newSettings (staging : List Quad) (n : Fin 4) : LaneSettings :=
  laneSettingsOfQuads (laneBursts staging n).1 (laneBursts staging n).2

/-- The new program area of lane n meets the control block, the new area of a lower lane, or a used entry of the active table
(R9, R161). -/
def State.areaOverlaps (s : State) (staging : List Quad) (n : Fin 4) : Bool :=
  match (newSettings staging n).page with
  | none => false
  | some p =>
    runsOverlap (pageBase p) 256 s.base.toNat 256
    || (laneList.any fun m => decide (m.val < n.val) && (newSettings staging m).page == some p)
    || windowList.any fun w =>
        (s.window w).used && runsOverlap (pageBase p) 256 (s.window w).base.toNat (s.window w).length

/-- The first lane whose new program area overlaps. -/
def State.settingsOverlap (s : State) (staging : List Quad) : Option (Fin 4) :=
  laneList.find? fun n => s.areaOverlaps staging n

/-- The installation of the settings as one event (R162). LFLn follows its new polarity, since no pulse is active. -/
def State.installSettings (s : State) (staging : List Quad) : State :=
  { s with settings := deviceSettingsOfQuad (burstAt staging 0),
           lanes := Four.ofFn fun n => { s.lane n with settings := newSettings staging n } }

/-- LOAD SETTINGS after its ninth burst (R161, R162). -/
def State.checkSettings (s : State) (staging : List Quad) : State :=
  match settingsRangeFault staging with
  | some offset => s.finishLong (Command.code .loadSettings) .range (BitVec.ofNat 16 offset)
  | none =>
    match s.settingsOverlap staging with
    | some n => s.finishLong (Command.code .loadSettings) .overlap (BitVec.ofNat 16 n.val)
    | none => (s.installSettings staging).finishLong (Command.code .loadSettings) .done 0

/-- The control block offset of the i-th table read burst (R10, R160). -/
def settingsBurstOffset (i : Nat) : Nat := if i = 0 then 0x03 else 0x10 + 4 * (i - 1)

def windowsBurstOffset (i : Nat) : Nat := 0x30 + 4 * i

/-! ### Finishing (R12, R151, R156, R157, R163) -/

/-- The long command in progress finishes if what it waits for has come about. Every meaning ends with this test, so a long
command finishes at the first moment its rule gives (DEDUCED, safe; log entry 12). -/
def State.settle (s : State) : State :=
  match s.engine with
  | .executing .goQuiet => if s.allAtRest then s.finishLong (Command.code .goQuiet) .done 0 else s
  | .executing .goOffline =>
    if s.allAtRest && s.slotsEmpty then s.finishLong (Command.code .goOffline) .done 0 else s
  | .executing (.drainWindows table) =>
    if s.slotsEmpty then (s.installTable table).finishLong (Command.code .loadWindows) .done 0 else s
  | .executing .softReset => if s.noneForced then s.finishLong (Command.code .softReset) .done 0 else s
  | .executing (.loadSettings _) => s
  | .executing (.loadWindows _) => s
  | .idle => s

/-! ### Which commands may be taken (R149, R152) -/

/-- The command is available in the device mode (R152). -/
def Command.available (c : Command) (m : Mode) : Bool :=
  match c with
  | .goQuiet | .markChanged | .releaseLocks => m != .offline
  | .startOnce | .startContinuous => m == .online
  | .goOffline | .goOnline | .loadSettings | .loadWindows | .stop | .abort | .clear | .freezeFirst | .freezeSecond
  | .softReset => true

/-- The command is refused with FROZEN while the part is frozen (R149). -/
def Command.refusedFrozen : Command → Bool
  | .loadSettings | .loadWindows | .softReset => true
  | .goOffline | .goQuiet | .goOnline | .startOnce | .startContinuous | .stop | .abort | .clear | .markChanged
  | .releaseLocks | .freezeFirst | .freezeSecond => false

/-- The bound of the command's argument: four lanes, sixteen windows, or no argument to examine (R149). -/
def Command.argBound : Command → Nat
  | .startOnce | .startContinuous | .stop | .abort | .clear => 4
  | .markChanged => 16
  | .goOffline | .goQuiet | .goOnline | .loadSettings | .loadWindows | .releaseLocks | .freezeFirst | .freezeSecond
  | .softReset => 256

/-- The lane an argument in range names. -/
def laneOf (arg : Byte) : Fin 4 := ⟨arg.toNat % 4, by omega⟩

/-- The window an argument in range names. -/
def windowOf (arg : Byte) : Fin 16 := ⟨arg.toNat % 16, by omega⟩

def argWord (arg : Byte) : Word := arg.setWidth 16

/-! ### Carrying out each command -/

/-- GO ONLINE (R155): from OFFLINE the table becomes active and the tracked sets are filled (R5, R23). -/
def State.takeGoOnline (s : State) : State :=
  let t := if s.mode = .offline then { s with mode := .online }.fillSets fun _ => true else { s with mode := .online }
  t.setResult (Command.code .goOnline) .done 0

/-- GO QUIET on one lane (R101, R121): a WAITING lane stops; a RUNNING or HOLDING lane is to stop at the step end, at once when
it is in a WAIT step or has only a fetch claim placed. -/
def State.quietLane (s : State) (n : Fin 4) : State :=
  let l := s.lane n
  match l.state with
  | .waiting => s.enterStopped n true
  | .running | .holding =>
    match l.work with
    | .fetchClaim | .delay | .triggerWait => s.enterStopped n true
    | .none | .captureClaim | .capturing | .calling | .commitClaim _ | .committing _ | .heldBack _ =>
      s.setLane n { l with stopAtStepEnd := true }
  | .stopped | .faulted => s

/-- GO QUIET in QUIET or ONLINE (R156); its finishing is settle's. -/
def State.takeGoQuiet (s : State) : State :=
  if s.mode = .quiet then s.setResult (Command.code .goQuiet) .done 0
  else laneList.foldl State.quietLane ({ s with mode := .quiet }.beginLong .goQuiet)

/-- GO OFFLINE (R157): mode, lanes, locks and changed sets, as one event. Its finishing is settle's. -/
def State.takeGoOffline (s : State) : State :=
  let t := { s with mode := .offline }.beginLong .goOffline
  ((laneList.foldl (fun t n => t.cutLane n false) t).releaseAll).emptySets

/-- LOAD SETTINGS and LOAD WINDOWS (R10, R160): LANES_ACTIVE when a lane is active, else the read phase begins. -/
def State.takeLoad (s : State) (long : LongCommand) : State :=
  match s.firstActive with
  | some n => s.setResult long.code .lanesActive (BitVec.ofNat 16 n.val)
  | none => s.beginLong long

/-- START ONCE and START CONTINUOUS (R109, R110). -/
def State.takeStart (s : State) (c : Command) (arg : Byte) (mode : StartMode) : State :=
  let n := laneOf arg
  if (s.lane n).state = .faulted then s.setResult c.code .state (argWord arg)
  else if !(s.lane n).loaded then s.setResult c.code .notLoaded (argWord arg)
  else (s.startLane n mode).setResult c.code .done (argWord arg)

/-- STOP n (R120). -/
def State.takeStop (s : State) (arg : Byte) : State :=
  let n := laneOf arg
  let l := s.lane n
  match l.state with
  | .stopped => s.setResult (Command.code .stop) .done (argWord arg)
  | .waiting => (s.enterStopped n true).setResult (Command.code .stop) .done (argWord arg)
  | .running | .holding =>
    (s.setLane n { l with stopAtCycleEnd := true }).setResult (Command.code .stop) .done (argWord arg)
  | .faulted => s.setResult (Command.code .stop) .state (argWord arg)

/-- ABORT n (R122). -/
def State.takeAbort (s : State) (arg : Byte) : State :=
  (s.cutLane (laneOf arg) true).setResult (Command.code .abort) .done (argWord arg)

/-- CLEAR n (R126). -/
def State.takeClear (s : State) (arg : Byte) : State :=
  let n := laneOf arg
  let l := s.lane n
  if l.state = .faulted then
    ((s.setLane n { l with lastError := LastError.clear }).enterStopped n false).setResult
      (Command.code .clear) .done (argWord arg)
  else s.setResult (Command.code .clear) .state (argWord arg)

/-- MARK CHANGED w (R24). -/
def State.takeMarkChanged (s : State) (arg : Byte) : State :=
  let w := windowOf arg
  if (s.window w).tracked then
    (s.fillSets fun v => v == w).setResult (Command.code .markChanged) .done 0
  else s.setResult (Command.code .markChanged) .range (argWord arg)

/-- RELEASE LOCKS (R36, R37). -/
def State.takeReleaseLocks (s : State) : State := s.releaseAll.setResult (Command.code .releaseLocks) .done 0

/-- FREEZE FIRST (R153). -/
def State.takeFreezeFirst (s : State) : State :=
  if s.frozen then s.setResult (Command.code .freezeFirst) .done 0
  else { s with armed := true }.setResult (Command.code .freezeFirst) .armed 0

/-- FREEZE SECOND (R153): the only command that finds *armed* as the word before it left it. -/
def State.takeFreezeSecond (s : State) : State :=
  if s.armed && !s.frozen then
    { s with frozen := true, armed := false }.setResult (Command.code .freezeSecond) .done 0
  else { s with armed := false }.setResult (Command.code .freezeSecond) .state 0

/-- What SOFT RESET leaves of a lane (R78, R106, R129, R163): the reset state, but an abort mark (one driven by the cut, or one
already running) and a pause still to pass run on. -/
def Lane.softReset (l : Lane) : Lane := { Lane.reset with link := l.link.cut l.settings }

/-- SOFT RESET, stages 1 and 2 as one event (R163). Stage 3 is the status writer's, and its finishing settle's. -/
def State.takeSoftReset (s : State) : State :=
  let t : State :=
    { s with
      mode := .offline
      lanes := Four.ofFn fun n => (s.lane n).softReset
      locks := []
      slots := Four.replicate none
      drains := Four.replicate false
      changed := Sixteen.replicate []
      table := Sixteen.replicate WindowEntry.unused
      settings := DeviceSettings.default
      events := 0
      guardAddr := 0
      resetCause := .soft
      status := s.status.map fun w => { w with forced := true }
      sweep := 0 }
  t.beginLong .softReset

/-- A command that is available and in range is carried out, with its own checks (R149 steps 5 and 6). -/
def State.carryOutCommand (s : State) (c : Command) (arg : Byte) : State :=
  match c with
  | .goOffline => s.takeGoOffline
  | .goQuiet => s.takeGoQuiet
  | .goOnline => s.takeGoOnline
  | .loadSettings => s.takeLoad (.loadSettings [])
  | .loadWindows => s.takeLoad (.loadWindows [])
  | .startOnce => s.takeStart c arg .once
  | .startContinuous => s.takeStart c arg (s.lane (laneOf arg)).continuousMode
  | .stop => s.takeStop arg
  | .abort => s.takeAbort arg
  | .clear => s.takeClear arg
  | .markChanged => s.takeMarkChanged arg
  | .releaseLocks => s.takeReleaseLocks
  | .freezeFirst => s.takeFreezeFirst
  | .freezeSecond => s.takeFreezeSecond
  | .softReset => s.takeSoftReset

/-- A command word taken while the engine is IDLE: the first outcome of R149's list that applies. -/
def State.takeCommand (s : State) (code arg : Byte) : State :=
  match commandOf code with
  | none => { s with armed := false }.setResult code .unknown 0
  | some c =>
    let t := if c = .freezeSecond then s else { s with armed := false }
    if !c.available t.mode then t.setResult code .notAvailable (BitVec.ofNat 16 t.mode.code)
    else if c.refusedFrozen && t.frozen then t.setResult code .frozen 0
    else if c.argBound ≤ arg.toNat then t.setResult code .range (argWord arg)
    else t.carryOutCommand c arg

/-- A command word is received (R147, R149): turned away with BUSY while the engine is EXECUTING, else taken. -/
def State.receiveCommand (s : State) (word : Word) : State :=
  let code := upperByte word
  let arg := lowerByte word
  match s.engine with
  | .executing long =>
    let t := if commandOf code = some .freezeSecond then s else { s with armed := false }
    t.setResult code .busy (long.code.setWidth 16)
  | .idle => s.takeCommand code arg

end Sys2Proof.Machine
end

