-- ==== Sys2Proof/Machine/Grants.lean ====
section
/-! DEFINITION. The meanings of the grants of bridge claims and of the ends of bursts (chapters 1 to 3, 5, 7 to 9). The arbiter
decides who is granted (R137 to R140), at a free port (State.atGrant). A grant row whose claim the arbiter would not grant now,
and an end row with no such burst on the port, is an event that does not occur: nothing changes (R140, "none"; log entry 1). -/

namespace Sys2Proof.Machine

/-! ### Step fetch -/

/-- STEP_FETCH_GRANT (R80): at the grant the four words are read, checked and the step carried out; the burst holds the port for
its four words (R137). -/
def State.stepFetchGrant (s : State) : State :=
  match s.grantable with
  | some (.fetch n) => ((s.countGrant (.fetch n)).fetchStep n).holdPort (.fetch n) 4 []
  | _ => s

def execStepFetchGrant (s : State) : Host.Outcome State Fault Refusal := .next s.atGrant.stepFetchGrant.settle

/-! ### Capture -/

/-- The words 0 to size − 1 of record k of a window, as memory holds them (R3, R8). -/
def State.recordWords (s : State) (e : WindowEntry) (k : Nat) : List Word :=
  (List.range e.size).map fun j => Memory.readWord s.mem (e.wordAddr k j)

/-- CAPTURE_GRANT (R18, R90): the index leaves the changed set and the record is read into the outbound buffer. -/
def State.captureGrant (s : State) : State :=
  match s.grantable with
  | some (.capture n) =>
    let t := s.countGrant (.capture n)
    let l := t.lane n
    match l.selection with
    | some sel =>
      let e := t.window sel.window
      let u := t.removeChanged sel.window l.position
      (u.setLane n { l with work := .capturing, outbound := t.recordWords e l.position }).holdPort
        (.capture n) e.size []
    | none => t
  | _ => s

def execCaptureGrant (s : State) : Host.Outcome State Fault Refusal := .next s.atGrant.captureGrant.settle

/-- CAPTURE_BURST_END (R90): the lane requests the PUT call with the words of the outbound buffer (R62). -/
def State.captureBurstEnd (s : State) : State :=
  match s.port with
  | some { user := .capture n, .. } =>
    let t := s.endBurst
    let l := t.lane n
    match l.work, l.selection with
    | .capturing, some sel => t.requestCall n
        { verb := .put, node := sel.nodeOf l.position, words := l.outbound, requested := 0, exact := false }
    | _, _ => t
  | _ => s

def execCaptureBurstEnd (s : State) : Host.Outcome State Fault Refusal := .next s.captureBurstEnd.settle

/-! ### Commit -/

/-- The commit decision of R41 for lane n and its entry. -/
def State.decideCommit (s : State) (n : Fin 4) (e : HoldEntry) : State :=
  let l := s.lane n
  let slot := s.slots.get n
  if s.locked e.window e.record then
    match slot with
    | none => (s.fillSlot n e).commitResolved n e
    | some _ =>
      if slotHolds slot e.window e.record then (s.fillSlot n e.asReplacement).commitResolved n e
      else s.setLane n { l with state := .holding, work := .heldBack e }
  else
    let supersedes := slotHolds slot e.window e.record
    let e := if supersedes then e.asReplacement else e
    let t := if supersedes then s.dropSlot n else s
    (t.setLane n { l with work := .committing e }).holdPort (.commit n) (e.data.length + 1) (t.entryWrites e)

/-- COMMIT_GRANT (R41 to R45). -/
def State.commitGrant (s : State) : State :=
  match s.grantable with
  | some (.commit n) =>
    match (s.lane n).work with
    | .commitClaim e => (s.countGrant (.commit n)).decideCommit n e
    | _ => s
  | _ => s

def execCommitGrant (s : State) : Host.Outcome State Fault Refusal := .next s.atGrant.commitGrant.settle

/-- COMMIT_BURST_END (R42, R44): the entry is in memory and the commit resolved. -/
def State.commitBurstEnd (s : State) : State :=
  match s.port with
  | some { user := .commit n, .. } =>
    match (s.lane n).work with
    | .committing e => s.endBurst.commitResolved n e
    | _ => s.endBurst
  | _ => s

def execCommitBurstEnd (s : State) : Host.Outcome State Fault Refusal := .next s.commitBurstEnd.settle

/-! ### Drain -/

/-- DRAIN_GRANT (R48): the entry is written if its record is unlocked; otherwise it stays and the claim is gone. -/
def State.drainGrant (s : State) : State :=
  match s.grantable with
  | some (.drain n) =>
    let t := { s.countGrant (.drain n) with drains := s.drains.set n false }
    match t.slots.get n with
    | some e =>
      if t.locked e.window e.record then t
      else t.holdPort (.drain n) (e.data.length + 1) (t.entryWrites e)
    | none => t
  | _ => s

def execDrainGrant (s : State) : Host.Outcome State Fault Refusal := .next s.atGrant.drainGrant.settle

/-- DRAIN_BURST_END (R49): the slot is empty, a HOLDING lane of it retries (R45); a waiting command is settle's. -/
def State.drainBurstEnd (s : State) : State :=
  match s.port with
  | some { user := .drain n, .. } => (s.endBurst.dropSlot n).retryHeld n
  | _ => s

def execDrainBurstEnd (s : State) : Host.Outcome State Fault Refusal := .next s.drainBurstEnd.settle

/-! ### Command table reads -/

/-- COMMAND_TABLE_READ_GRANT (R10, R160): four image words are read into the staging copy. -/
def State.tableReadGrant (s : State) : State :=
  match s.grantable with
  | some .table =>
    let t := s.countGrant .table
    match t.engine with
    | .executing (.loadSettings staging) =>
      let q := Memory.readQuad t.mem (t.blockAddr (settingsBurstOffset staging.length))
      { t with engine := .executing (.loadSettings (staging ++ [q])) }.holdPort .tableRead 4 []
    | .executing (.loadWindows staging) =>
      let q := Memory.readQuad t.mem (t.blockAddr (windowsBurstOffset staging.length))
      { t with engine := .executing (.loadWindows (staging ++ [q])) }.holdPort .tableRead 4 []
    | _ => s
  | _ => s

def execCommandTableReadGrant (s : State) : Host.Outcome State Fault Refusal := .next s.atGrant.tableReadGrant.settle

/-- COMMAND_TABLE_READ_END (R10, R11, R160, R161): the next claim is placed, or after the last burst the checks follow. -/
def State.tableReadEnd (s : State) : State :=
  match s.port with
  | some { user := .tableRead, .. } =>
    let t := s.endBurst
    match t.engine with
    | .executing (.loadSettings staging) => if 9 ≤ staging.length then t.checkSettings staging else t
    | .executing (.loadWindows staging) => if 16 ≤ staging.length then t.checkWindows staging else t
    | _ => t
  | _ => s

def execCommandTableReadEnd (s : State) : Host.Outcome State Fault Refusal := .next s.tableReadEnd.settle

/-! ### Status writes -/

/-- The i-th status word is written with its value at this moment (R173): memory, the last-written value, the forced flag and the
mark of a result or guard address word, for the cause word the last-written cause, and otherwise the sweep position (R172). -/
def State.writeStatus (s : State) (i : Nat) : State :=
  let v := s.statusValue i
  { s with
    mem := Memory.writeWord s.mem (s.blockAddr (statusOffset i)) v
    status := s.status.set i { written := v, forced := false }
    resultMarked := if i = 1 then false else s.resultMarked
    detailMarked := if i = 2 then false else s.detailMarked
    guardLowMarked := if i = 6 then false else s.guardLowMarked
    guardHighMarked := if i = 7 then false else s.guardHighMarked
    lastCause := if i = causeIndex then s.cause else s.lastCause
    sweep := if i = causeIndex then s.sweep else (i + 1) % statusWords }

/-- STATUS_WRITE_GRANT (R172, R173): the word is in memory at the grant, and the burst holds the port for it (R137). -/
def State.statusWriteGrant (s : State) : State :=
  match s.grantable with
  | some .status =>
    match s.statusChoice with
    | some i => ((s.countGrant .status).writeStatus i).holdPort .status 1 []
    | none => s
  | _ => s

def execStatusWriteGrant (s : State) : Host.Outcome State Fault Refusal := .next s.atGrant.statusWriteGrant.settle

end Sys2Proof.Machine
end

