-- ==== Sys2Proof/Machine/MemoryPath.lean ====
section
/-! DEFINITION. The memory path (chapter 7): a processor access from its arrival at the upstream port to its grant, the guard,
the forwarding and the snoop tap. -/

namespace Sys2Proof.Machine

/-! ### The snoop tap (R132) -/

/-- What a forwarded write does in the blocks that watch memory: the change tracker (R7, R17), the command engine for a word
write of offset 00h (R147), the event unit for offsets 01h and 02h (R169). -/
def State.snoopWrite (s : State) (a : Access) : State :=
  let t := match s.place a.addr with
    | some p => s.addChanged p.window p.record
    | none => s
  match s.blockOffset a.addr with
  | some 0 => if a.sel = .both then t.receiveCommand a.data else t
  | some 1 => t.clearEvents (ackMask false a.data a.sel)
  | some 2 => t.clearEvents (ackMask true a.data a.sel)
  | _ => t

/-- The event a read of the cause word clears, by the data that memory returned (R170). -/
def State.clearCause (s : State) (returned : Word) (sel : ByteSel) : State :=
  let c := causeCode returned sel
  if c = 0 then s else s.clearEvents (BitVec.twoPow 19 (c - 1))

/-- What a read does in the blocks that watch memory: the lock unit for the first word and the stamp of a record with read
locking (R7, R32, R34), the event unit for the cause word (R170). -/
def State.snoopRead (s : State) (a : Access) (returned : Word) : State :=
  let t := match s.place a.addr with
    | some p =>
      let e := s.window p.window
      if e.locking then
        if p.word = 0 then s.createLock p.window p.record
        else if p.word = e.size - 1 then s.stampRelease p.window p.record else s
      else s
    | none => s
  if s.blockOffset a.addr = some 0x83 then t.clearCause returned a.sel else t

/-! ### A granted access (R130, R133) -/

/-- A write is blocked outside reset (R133): the guard address names it, both its status words become stale, and GUARD is raised. -/
def State.guardHit (s : State) (addr : Addr) : State :=
  { s with guardAddr := addr, guardLowMarked := true, guardHighMarked := true }.raise .guard

/-- A processor write at its grant: blocked when its address is guarded, with GUARD and the guard address outside reset (R133,
R134); otherwise forwarded, and seen by the snoop tap outside reset (R131). -/
def State.grantWrite (s : State) (a : Access) : State :=
  if s.guarded a.addr then
    if s.phase = .running then s.guardHit a.addr else s
  else
    let t := { s with mem := Memory.writeSel s.mem a.addr a.data a.sel }
    if s.phase = .running then t.snoopWrite a else t

/-- What a read returns on HD15–HD0: the enabled bytes of the word memory holds (R130). -/
def returnedBytes (w : Word) (sel : ByteSel) : ReadReturn :=
  { upper := if selUpper sel then some (upperByte w) else none, lower := if selLower sel then some (lowerByte w) else none }

/-- A processor read at its grant: it is forwarded in every state (R130), and seen by the snoop tap outside reset (R131). -/
def State.grantRead (s : State) (a : Access) : State :=
  let w := Memory.readWord s.mem a.addr
  let t := { s with readData := returnedBytes w a.sel }
  if s.phase = .running then t.snoopRead a w else t

/-- A processor access at its grant; the wait is over and the fairness count moves (R140). The access is a whole step: the
processor ends its strobes within it and the port is free afterwards (log entry 7). -/
def State.grantAccess (s : State) (a : Access) : State :=
  let t := { s.countAccess with upstream := none }
  if a.write then t.grantWrite a else t.grantRead a

/-! ### The way to a grant (R139 to R141) -/

/-- The burst that holds the port runs to its end (R139). -/
def State.finishBurst (s : State) : State :=
  match s.port with
  | some b =>
    match b.user with
    | .capture _ => s.captureBurstEnd.settle
    | .commit _ => s.commitBurstEnd.settle
    | .drain _ => s.drainBurstEnd.settle
    | .tableRead => s.tableReadEnd.settle
    | .fetch _ | .status => s.endBurst
  | none => s

/-- The bridge claim that the arbiter grants next is granted (R137, R138). -/
def State.runGrant (s : State) : State :=
  match s.grantable with
  | some (.commit _) => s.commitGrant.settle
  | some (.drain _) => s.drainGrant.settle
  | some (.capture _) => s.captureGrant.settle
  | some (.fetch _) => s.stepFetchGrant.settle
  | some .table => s.tableReadGrant.settle
  | some .status => s.statusWriteGrant.settle
  | none => s

/-- What an access waits for (R141): the end of the burst on the port and, with the fairness count at 4 and a claim waiting, the
one bridge grant that R140 makes first, with its burst. -/
def State.clearWay (s : State) : State :=
  let t := s.finishBurst
  if t.accessGrantable then t else t.runGrant.finishBurst

/-- An access reaches its grant: at once when the arbiter can, otherwise after its wait (log entry 8). -/
def State.serve (s : State) (a : Access) : State :=
  (if s.accessGrantable then s else s.clearWay).grantAccess a

/-- The processor has one access at a time (R130): one that waits is served before another begins. -/
def State.serveWaiting (s : State) (a : Access) : State :=
  match s.upstream with
  | some b => if b = a then s else (s.serve b).settle
  | none => s

/-- An access of the processor, to its grant; a long command that can finish at once does (log entry 12). -/
def State.giveAccess (s : State) (a : Access) : State := ((s.serveWaiting a).serve a).settle

/-- An access arrives at the upstream port (R141): one that the arbiter cannot grant waits, with HWAIT# asserted. -/
def State.arrive (s : State) (a : Access) : State :=
  let t := s.serveWaiting a
  if t.accessGrantable then (t.grantAccess a).settle else { t with upstream := some a }

/-- HWAIT# is asserted while a processor access waits (R141). -/
def State.hwaitAsserted (s : State) : Bool := s.upstream.isSome

/-- The access that writes a command word: a word write of code and argument to offset 00h (R147). -/
def State.commandAccess (s : State) (code arg : Byte) : Access :=
  { write := true, addr := s.base, data := joinBytes code arg, sel := .both }

/-- A command word given by the processor. -/
def State.giveCommand (s : State) (code arg : Byte) : State := s.giveAccess (s.commandAccess code arg)

end Sys2Proof.Machine
end

