-- ==== Sys2Proof/Machine/Accesses.lean ====
section
/-! DEFINITION. The meanings of the other processor accesses. Each gives its access to the upstream port; what the access does is
decided by its address and the state at its grant, as the part decides it (R132, R133), not by the row it came as (log entry
11). -/

namespace Sys2Proof.Machine

/-- A write to ACK0 or ACK1 (R148, R169). -/
def execAcknowledgeWrite (second : Bool) (data : Word) (sel : ByteSel) (s : State) : Host.Outcome State Fault Refusal :=
  .next (s.giveAccess { write := true, addr := s.blockAddr (if second then 2 else 1), data := data, sel := sel })

/-- A read of the cause word (R170). -/
def execCauseRead (sel : ByteSel) (s : State) : Host.Outcome State Fault Refusal :=
  .next (s.giveAccess { write := false, addr := s.blockAddr 0x83, data := 0, sel := sel })

/-- A read of the first word of a feed record with read locking (R32). -/
def execFirstWordRead (addr : Addr) (sel : ByteSel) (s : State) : Host.Outcome State Fault Refusal :=
  .next (s.giveAccess { write := false, addr := addr, data := 0, sel := sel })

/-- A read of the stamp of a feed record with read locking (R34). -/
def execStampRead (addr : Addr) (sel : ByteSel) (s : State) : Host.Outcome State Fault Refusal :=
  .next (s.giveAccess { write := false, addr := addr, data := 0, sel := sel })

/-- A write into a tracked mirror record (R17). -/
def execTrackedMirrorWrite (addr : Addr) (data : Word) (sel : ByteSel) (s : State) : Host.Outcome State Fault Refusal :=
  .next (s.giveAccess { write := true, addr := addr, data := data, sel := sel })

/-- A write to a guarded area (R133). -/
def execBlockedWrite (addr : Addr) (data : Word) (sel : ByteSel) (s : State) : Host.Outcome State Fault Refusal :=
  .next (s.giveAccess { write := true, addr := addr, data := data, sel := sel })

/-- A write that no block watches (R130). -/
def execProcessorWrite (addr : Addr) (data : Word) (sel : ByteSel) (s : State) : Host.Outcome State Fault Refusal :=
  .next (s.giveAccess { write := true, addr := addr, data := data, sel := sel })

/-- An access that finds the port held by a burst, or the fairness count at 4 with a claim waiting, waits with HWAIT# asserted
until its grant (R141): the grant comes when the same access is given again, or by the part's own step once it can be made. -/
def execAccessWait (access : Access) (s : State) : Host.Outcome State Fault Refusal := .next (s.arrive access)

end Sys2Proof.Machine
end

