-- ==== Sys2Proof/Machine/Calls.lean ====
section
/-! DEFINITION. The meanings of the string link's events (chapter 4). An event that the link engine cannot meet in its state (a
reply with no call waiting for one) does not reach the part: LDIn is looked at only while a reply or data is awaited (R58), and
nothing changes (log entry 1). -/

namespace Sys2Proof.Machine

/-- CALL_BEGIN (R62): with the engine IDLE and a request waiting, the pause has passed and the call begins. A call requested at an
engine that could begin it has begun with its request (Lane.requestCall). -/
def State.callBegin (s : State) (n : Fin 4) : State :=
  let l := s.lane n
  match l.link.engine, l.link.request with
  | .idle, some c => s.setLane n (l.beginCall c)
  | _, _ => s

def execCallBegin (n : Fin 4) (s : State) : Host.Outcome State Fault Refusal := .next (s.callBegin n).settle

/-- A good, accepting reply to a GET (R66): the engine takes min(AVAIL, requested) data words, or the call ends at once when
that is 0. -/
def State.getAccepted (s : State) (n : Fin 4) (c : Call) (word : Word) : State :=
  let l := s.lane n
  let d := min (replyAvail word) c.requested
  if d = 0 then s.endCall n c (getOutcome word c false) (some (replyStatus word))
  else s.setLane n { l with
    link := { l.link.awaitData with reply := some word, expected := d, taken := 0, dataBad := false } }

/-- REPLY_RECEIVED (R60, R65, R66). -/
def State.replyReceived (s : State) (n : Fin 4) (word : Word) (parity : Bool) : State :=
  let l := s.lane n
  if l.link.awaitsReply then
    match l.link.call with
    | some c =>
      let good := goodWord word parity
      match c.verb with
      | .put | .ctl => s.endCall n c (replyOutcome word good) (if good then some (replyStatus word) else none)
      | .get =>
        if good && replyAccept word then s.getAccepted n c word
        else s.endCall n c (replyOutcome word good) (if good then some (replyStatus word) else none)
    | none => s
  else s

def execReplyReceived (n : Fin 4) (word : Word) (parity : Bool) (s : State) : Host.Outcome State Fault Refusal :=
  .next (s.replyReceived n word parity).settle

/-- DATA_WORD_RECEIVED (R67, R68): a good word goes to the inbound buffer, a bad one is noted; the last one ends the call. -/
def State.dataWordReceived (s : State) (n : Fin 4) (word : Word) (parity : Bool) : State :=
  let l := s.lane n
  if l.link.awaitsData then
    match l.link.call, l.link.reply with
    | some c, some reply =>
      let good := goodWord word parity
      let link : Link := { l.link with taken := l.link.taken + 1, dataBad := l.link.dataBad || !good }
      let t := s.setLane n { l with inbound := if good then l.inbound ++ [word] else l.inbound, link := link.awaitData }
      if link.expected ≤ link.taken then t.endCall n c (getOutcome reply c link.dataBad) (some (replyStatus reply)) else t
    | _, _ => s
  else s

def execDataWordReceived (n : Fin 4) (word : Word) (parity : Bool) (s : State) : Host.Outcome State Fault Refusal :=
  .next (s.dataWordReceived n word parity).settle

/-- REPLY_WAIT_TIMEOUT (R64): NO_ANSWER, with no node status. -/
def State.replyWaitTimeout (s : State) (n : Fin 4) : State :=
  let l := s.lane n
  if l.link.replyCanTimeOut then
    match l.link.call with
    | some c => s.endCall n c .noAnswer none
    | none => s
  else s

def execReplyWaitTimeout (n : Fin 4) (s : State) : Host.Outcome State Fault Refusal := .next (s.replyWaitTimeout n).settle

/-- DATA_WAIT_TIMEOUT (R67): TRUNCATED, with the node status of the reply (R70). -/
def State.dataWaitTimeout (s : State) (n : Fin 4) : State :=
  let l := s.lane n
  match l.link.engine, l.link.call, l.link.reply with
  | .dataWait, some c, some reply => s.endCall n c .truncated (some (replyStatus reply))
  | _, _, _ => s

def execDataWaitTimeout (n : Fin 4) (s : State) : Host.Outcome State Fault Refusal := .next (s.dataWaitTimeout n).settle

/-- BROADCAST_TAIL_END (R69): OK, with no node status. -/
def State.broadcastTailEnd (s : State) (n : Fin 4) : State :=
  let l := s.lane n
  if l.link.inBroadcast then
    match l.link.call with
    | some c => s.endCall n c .ok none
    | none => s
  else s

def execBroadcastTailEnd (n : Fin 4) (s : State) : Host.Outcome State Fault Refusal := .next (s.broadcastTailEnd n).settle

/-- ABORT_MARK_END (R71): the engine enters IDLE; the pause follows (R57). -/
def State.abortMarkEnd (s : State) (n : Fin 4) : State :=
  let l := s.lane n
  if l.link.engine = .mark then s.setLane n { l with link := l.link.toIdle } else s

def execAbortMarkEnd (n : Fin 4) (s : State) : Host.Outcome State Fault Refusal := .next (s.abortMarkEnd n).settle

end Sys2Proof.Machine
end

