-- ==== Sys2Proof/Machine/Commands.lean ====
section
/-! DEFINITION. The meanings of the sixteen command words (section 10.5): each is the processor's word write of its code and
argument to control block offset 00h, taken by the command engine as its rule says. -/

namespace Sys2Proof.Machine

/-- GO OFFLINE (R157). -/
def execGoOffline (arg : Byte) (s : State) : Host.Outcome State Fault Refusal :=
  .next (s.giveCommand (Command.code .goOffline) arg)

/-- GO QUIET (R156, R121). -/
def execGoQuiet (arg : Byte) (s : State) : Host.Outcome State Fault Refusal :=
  .next (s.giveCommand (Command.code .goQuiet) arg)

/-- GO ONLINE (R155). -/
def execGoOnline (arg : Byte) (s : State) : Host.Outcome State Fault Refusal :=
  .next (s.giveCommand (Command.code .goOnline) arg)

/-- LOAD SETTINGS as it is taken (R160). -/
def execLoadSettings (arg : Byte) (s : State) : Host.Outcome State Fault Refusal :=
  .next (s.giveCommand (Command.code .loadSettings) arg)

/-- LOAD WINDOWS as it is taken (R10). -/
def execLoadWindows (arg : Byte) (s : State) : Host.Outcome State Fault Refusal :=
  .next (s.giveCommand (Command.code .loadWindows) arg)

/-- START ONCE n (R110, R111). -/
def execStartOnce (arg : Byte) (s : State) : Host.Outcome State Fault Refusal :=
  .next (s.giveCommand (Command.code .startOnce) arg)

/-- START CONTINUOUS n (R110, R112, R113). -/
def execStartContinuous (arg : Byte) (s : State) : Host.Outcome State Fault Refusal :=
  .next (s.giveCommand (Command.code .startContinuous) arg)

/-- STOP n (R120). -/
def execStop (arg : Byte) (s : State) : Host.Outcome State Fault Refusal :=
  .next (s.giveCommand (Command.code .stop) arg)

/-- ABORT n (R122). -/
def execAbort (arg : Byte) (s : State) : Host.Outcome State Fault Refusal :=
  .next (s.giveCommand (Command.code .abort) arg)

/-- CLEAR n (R126). -/
def execClear (arg : Byte) (s : State) : Host.Outcome State Fault Refusal :=
  .next (s.giveCommand (Command.code .clear) arg)

/-- MARK CHANGED w (R24). -/
def execMarkChanged (arg : Byte) (s : State) : Host.Outcome State Fault Refusal :=
  .next (s.giveCommand (Command.code .markChanged) arg)

/-- RELEASE LOCKS (R37). -/
def execReleaseLocks (arg : Byte) (s : State) : Host.Outcome State Fault Refusal :=
  .next (s.giveCommand (Command.code .releaseLocks) arg)

/-- FREEZE FIRST (R153). -/
def execFreezeFirst (arg : Byte) (s : State) : Host.Outcome State Fault Refusal :=
  .next (s.giveCommand (Command.code .freezeFirst) arg)

/-- FREEZE SECOND (R153). -/
def execFreezeSecond (arg : Byte) (s : State) : Host.Outcome State Fault Refusal :=
  .next (s.giveCommand (Command.code .freezeSecond) arg)

/-- SOFT RESET, stages 1 and 2 (R163). -/
def execSoftReset (arg : Byte) (s : State) : Host.Outcome State Fault Refusal :=
  .next (s.giveCommand (Command.code .softReset) arg)

/-- A command word of a code given to no command (R149). -/
def execUnknownCommand (code arg : Byte) (s : State) : Host.Outcome State Fault Refusal :=
  .next (s.giveCommand code arg)

end Sys2Proof.Machine
end

