-- ==== Sys2Proof/Machine/Resets.lean ====
section
/-! DEFINITION. Hard reset and power-on reset (R15, R28, R54, R78, R106, R129, R134, R142, R143, R145, R165, R176, R177). SOFT
RESET is a command (R163). -/

namespace Sys2Proof.Machine

/-- A burst in progress when RST# is asserted ends at the word being accessed, whose access is completed (R142). `late` counts
the word times the burst has run beyond those the model has counted. -/
def State.cutBurst (s : State) (late : Nat) : State :=
  match s.port with
  | some b => { s with mem := Memory.writeAll s.mem (b.writes.take (b.done + late + 1)), port := none }
  | none => s

/-- Every block at its reset state, with what a hard reset keeps: memory, the sampled straps, an access that waits upstream, the
bytes last returned, the input levels, the status writer's last-written values, and the queue. -/
def State.blocksReset (s : State) (phase : Phase) (cause : ResetCause) : State :=
  { State.powerOn s.strap s.mem with
    pending := s.pending
    phase := phase
    upstream := s.upstream
    readData := s.readData
    ldi := s.ldi
    resetCause := cause
    status := s.status.map fun w => { w with forced := true } }

/-- A processor access that waits on the cut burst is granted when the cut ends it (R131). -/
def State.grantWaiting (s : State) : State :=
  match s.upstream with
  | some a => s.grantAccess a
  | none => s

/-- RST# asserted: the burst is cut, every claim withdrawn, the links stopped without a mark and every block reset. During
power-on reset the part is in reset already, and nothing changes. -/
def State.hardResetAssert (s : State) (late : Nat) : State :=
  if s.phase = .powerOnReset then s else ((s.cutBurst late).blocksReset .hardReset .hard).grantWaiting

def execHardResetAssert (late : Nat) (s : State) : Host.Outcome State Fault Refusal := .next (s.hardResetAssert late)

/-- RST# released: the base is sampled and the whole status area is to be written (R143, R176). It occurs only while RST# is
asserted. -/
def State.hardResetRelease (s : State) (straps : BitVec 2) : State :=
  if s.phase = .hardReset then { s.blocksReset .running .hard with strap := straps } else s

def execHardResetRelease (straps : BitVec 2) (s : State) : Host.Outcome State Fault Refusal :=
  .next (s.hardResetRelease straps)

/-- What the SRAM came up with, in canonical form: the words the event lists, every other word 0 (log entry 5). -/
def sramContents (sram : List (Addr × Word)) : List Host.Cell := Memory.writeAll [] sram

/-- Supplies are good: whatever the part held is gone, and power-on reset lets accesses pass until its end (R131, R134). The queue
and the input levels are not the part's. -/
def State.suppliesGood (s : State) (sram : List (Addr × Word)) : State :=
  { State.powerOn Config.resetStrap (sramContents sram) with pending := s.pending, phase := .powerOnReset, ldi := s.ldi }

/-- Power-on reset ends, with supplies good and RST# released: the base is sampled and the whole status area is to be written
(R143, R176). It occurs only after supplies have become good. -/
def State.powerOnEnds (s : State) (straps : BitVec 2) : State :=
  if s.phase = .powerOnReset then { s.blocksReset .running .powerOn with strap := straps } else s

/-- POWER_ON_RESET (R176; log entry 15). -/
def State.powerOnReset (s : State) (straps : BitVec 2) : PowerOnEvent → State
  | .suppliesGood sram => s.suppliesGood sram
  | .ends => s.powerOnEnds straps

def execPowerOnReset (straps : BitVec 2) (event : PowerOnEvent) (s : State) : Host.Outcome State Fault Refusal :=
  .next (s.powerOnReset straps event)

end Sys2Proof.Machine
end

