-- ==== Sys2Proof/Machine/Timers.lean ====
section
/-! DEFINITION. The meanings of timer expiries and of the trigger (chapters 3 to 6). A timer event comes only from a running
timer; with none running it does not occur and nothing changes (R38, R127; log entries 1 and 3). -/

namespace Sys2Proof.Machine

/-- LOCK_EXPIRY (R35). -/
def execLockExpiry (window : Fin 16) (record : Nat) (s : State) : Host.Outcome State Fault Refusal :=
  .next (s.expireLock window record).settle

/-- A tick or, in start mode TRIGGER, an edge finds the lane RUNNING or HOLDING (R117, R118): LATE(n), and a start is owed. -/
def State.owe (s : State) (n : Fin 4) : State :=
  (s.setLane n { s.lane n with startOwed := true }).raise (.late n)

/-- PERIOD_TICK (R112, R117): the timer runs on for a further full period. -/
def State.periodTick (s : State) (n : Fin 4) : State :=
  let l := s.lane n
  match l.periodTimer with
  | none => s
  | some _ =>
    let t := s.setLane n { l with periodTimer := some l.periodUnits }
    match l.state with
    | .waiting => t.startCycle n
    | .running | .holding => t.owe n
    | .stopped | .faulted => s

def execPeriodTick (n : Fin 4) (s : State) : Host.Outcome State Fault Refusal := .next (s.periodTick n).settle

/-- WAIT_DELAY_EXPIRY (R99): the step ends. -/
def State.waitDelayExpiry (s : State) (n : Fin 4) : State :=
  let l := s.lane n
  if l.work = .delay then (s.setLane n { l with delayTimer := none }).endStep n else s

def execWaitDelayExpiry (n : Fin 4) (s : State) : Host.Outcome State Fault Refusal := .next (s.waitDelayExpiry n).settle

/-- PULSE_RUN_OUT (R76): LFLn goes to the inactive level. -/
def State.pulseRunOut (s : State) (n : Fin 4) : State := s.setLane n { s.lane n with pulseTimer := none }

def execPulseRunOut (n : Fin 4) (s : State) : Host.Outcome State Fault Refusal := .next (s.pulseRunOut n).settle

/-- A selected trigger edge at lane n (R118, R119). -/
def State.edgeAtLane (s : State) (n : Fin 4) : State :=
  let l := s.lane n
  match l.state, l.startMode with
  | .waiting, .trigger => s.startCycle n
  | .running, .trigger => s.owe n
  | .holding, .trigger => s.owe n
  | .waiting, .once => s.setLane n { l with triggerLatch := true }
  | .waiting, .period => s.setLane n { l with triggerLatch := true }
  | .running, .once => if l.work = .triggerWait then s.endStep n else s.setLane n { l with triggerLatch := true }
  | .running, .period => if l.work = .triggerWait then s.endStep n else s.setLane n { l with triggerLatch := true }
  | .holding, .once => s.setLane n { l with triggerLatch := true }
  | .holding, .period => s.setLane n { l with triggerLatch := true }
  | .waiting, .none => s
  | .running, .none => s
  | .holding, .none => s
  | .stopped, _ => s
  | .faulted, _ => s

/-- TRIGGER_EDGE (R118): the edge the settings copy selects reaches all four lanes; the opposite edge has no effect. No lane is
in a run while a reset holds the part. -/
def State.triggerEdge (s : State) (rising : Bool) : State :=
  if rising = !s.settings.triggerFalling then laneList.foldl State.edgeAtLane s else s

def execTriggerEdge (rising : Bool) (s : State) : Host.Outcome State Fault Refusal := .next (s.triggerEdge rising).settle

end Sys2Proof.Machine
end

