-- ==== Sys2Proof/Machine/Dispatch.lean ====
section
/-! DEFINITION. exec: one arm for each row of spec/opcode_table.json. -/

namespace Sys2Proof.Machine

def exec (i : Instr) (s : State) : Host.Outcome State Fault Refusal :=
  match i with
  | .goOffline arg => Sys2Proof.Machine.execGoOffline arg s
  | .goQuiet arg => Sys2Proof.Machine.execGoQuiet arg s
  | .goOnline arg => Sys2Proof.Machine.execGoOnline arg s
  | .loadSettings arg => Sys2Proof.Machine.execLoadSettings arg s
  | .loadWindows arg => Sys2Proof.Machine.execLoadWindows arg s
  | .startOnce arg => Sys2Proof.Machine.execStartOnce arg s
  | .startContinuous arg => Sys2Proof.Machine.execStartContinuous arg s
  | .stop arg => Sys2Proof.Machine.execStop arg s
  | .abort arg => Sys2Proof.Machine.execAbort arg s
  | .clear arg => Sys2Proof.Machine.execClear arg s
  | .markChanged arg => Sys2Proof.Machine.execMarkChanged arg s
  | .releaseLocks arg => Sys2Proof.Machine.execReleaseLocks arg s
  | .freezeFirst arg => Sys2Proof.Machine.execFreezeFirst arg s
  | .freezeSecond arg => Sys2Proof.Machine.execFreezeSecond arg s
  | .softReset arg => Sys2Proof.Machine.execSoftReset arg s
  | .unknownCommand code arg => Sys2Proof.Machine.execUnknownCommand code arg s
  | .acknowledgeWrite second data sel => Sys2Proof.Machine.execAcknowledgeWrite second data sel s
  | .causeRead sel => Sys2Proof.Machine.execCauseRead sel s
  | .firstWordRead addr sel => Sys2Proof.Machine.execFirstWordRead addr sel s
  | .stampRead addr sel => Sys2Proof.Machine.execStampRead addr sel s
  | .trackedMirrorWrite addr data sel => Sys2Proof.Machine.execTrackedMirrorWrite addr data sel s
  | .blockedWrite addr data sel => Sys2Proof.Machine.execBlockedWrite addr data sel s
  | .processorWrite addr data sel => Sys2Proof.Machine.execProcessorWrite addr data sel s
  | .accessWait access => Sys2Proof.Machine.execAccessWait access s
  | .stepFetchGrant => Sys2Proof.Machine.execStepFetchGrant s
  | .captureGrant => Sys2Proof.Machine.execCaptureGrant s
  | .captureBurstEnd => Sys2Proof.Machine.execCaptureBurstEnd s
  | .commitGrant => Sys2Proof.Machine.execCommitGrant s
  | .commitBurstEnd => Sys2Proof.Machine.execCommitBurstEnd s
  | .drainGrant => Sys2Proof.Machine.execDrainGrant s
  | .drainBurstEnd => Sys2Proof.Machine.execDrainBurstEnd s
  | .commandTableReadGrant => Sys2Proof.Machine.execCommandTableReadGrant s
  | .commandTableReadEnd => Sys2Proof.Machine.execCommandTableReadEnd s
  | .statusWriteGrant => Sys2Proof.Machine.execStatusWriteGrant s
  | .callBegin n => Sys2Proof.Machine.execCallBegin n s
  | .replyReceived n word parity => Sys2Proof.Machine.execReplyReceived n word parity s
  | .dataWordReceived n word parity => Sys2Proof.Machine.execDataWordReceived n word parity s
  | .replyWaitTimeout n => Sys2Proof.Machine.execReplyWaitTimeout n s
  | .dataWaitTimeout n => Sys2Proof.Machine.execDataWaitTimeout n s
  | .broadcastTailEnd n => Sys2Proof.Machine.execBroadcastTailEnd n s
  | .abortMarkEnd n => Sys2Proof.Machine.execAbortMarkEnd n s
  | .lockExpiry window record => Sys2Proof.Machine.execLockExpiry window record s
  | .periodTick n => Sys2Proof.Machine.execPeriodTick n s
  | .waitDelayExpiry n => Sys2Proof.Machine.execWaitDelayExpiry n s
  | .pulseRunOut n => Sys2Proof.Machine.execPulseRunOut n s
  | .triggerEdge rising => Sys2Proof.Machine.execTriggerEdge rising s
  | .hardResetAssert late => Sys2Proof.Machine.execHardResetAssert late s
  | .hardResetRelease straps => Sys2Proof.Machine.execHardResetRelease straps s
  | .powerOnReset straps event => Sys2Proof.Machine.execPowerOnReset straps event s

end Sys2Proof.Machine
end

