-- ==== Sys2Proof/Machine/Time.lean ====
section
/-! DEFINITION. What the part does by itself when no command waits (log entry 2): the first event of its own that is due, and
otherwise 62.5 ns pass in its timers, its link engines and the burst on the port. -/

namespace Sys2Proof.Machine

/-! ### Events that are due -/

/-- The first lock whose remaining time is 0 (R35). -/
def State.dueLock (s : State) : Option Instr :=
  (s.locks.find? fun l => l.remaining == 0).map fun l => .lockExpiry l.window l.record

/-- The event of the link engine of lane n that is due: the end of a mark, a tail, a wait or a word, or the begin of a call whose
pause has passed. A received word is its 16 data bits and then its parity bit (R60). -/
def Link.due (l : Link) (n : Fin 4) : Option Instr :=
  match l.engine with
  | .idle => if l.request.isSome && l.pause == 0 then some (.callBegin n) else none
  | .mark => if Config.markBits < l.bit then some (.abortMarkEnd n) else none
  | .tail => if Config.tailBits ≤ l.bit then some (.broadcastTailEnd n) else none
  | .replyWait => if l.timeout ≤ l.bit then some (.replyWaitTimeout n) else none
  | .dataWait => if l.timeout ≤ l.bit then some (.dataWaitTimeout n) else none
  | .reply =>
    if Config.wordBits ≤ l.bit + 1 then
      some (.replyReceived n (wordOfBits (l.received.take 16)) (l.received.getD 16 false)) else none
  | .data =>
    if Config.wordBits ≤ l.bit + 1 then
      some (.dataWordReceived n (wordOfBits (l.received.take 16)) (l.received.getD 16 false)) else none
  | .send => none
  | .turnaround => none

/-- The timer event of lane n that is due. -/
def Lane.dueTimer (l : Lane) (n : Fin 4) : Option Instr :=
  if l.periodTimer = some 0 then some (.periodTick n)
  else if l.work = .delay && l.delayTimer == some 0 then some (.waitDelayExpiry n)
  else if l.pulseTimer = some 0 then some (.pulseRunOut n)
  else none

/-- The end of the burst on the port, once its words have been accessed (R137). -/
def State.dueBurstEnd (s : State) : Option Instr :=
  match s.port with
  | some b =>
    if b.length ≤ b.done then
      match b.user with
      | .capture _ => some .captureBurstEnd
      | .commit _ => some .commitBurstEnd
      | .drain _ => some .drainBurstEnd
      | .tableRead => some .commandTableReadEnd
      | .fetch _ | .status => none
    else none
  | none => none

/-- The grant row of a source. -/
def Source.grantRow : Source → Instr
  | .commit _ => .commitGrant
  | .drain _ => .drainGrant
  | .capture _ => .captureGrant
  | .fetch _ => .stepFetchGrant
  | .table => .commandTableReadGrant
  | .status => .statusWriteGrant

/-- The grant the arbiter makes now (R140): the waiting processor access, or a bridge claim. -/
def State.dueGrant (s : State) : Option Instr :=
  match s.upstream with
  | some a => if s.accessGrantable then some (.accessWait a) else s.grantable.map Source.grantRow
  | none => s.grantable.map Source.grantRow

/-- The first event of the part's own that is due. The spec does not order events of different blocks; this order is a DESIGN
CHOICE, unsafe for claims about runs on an empty queue; log entry 17. -/
def State.dueEvent (s : State) : Option Instr :=
  s.dueLock.or <|
  ((laneList.findSome? fun n => (s.lane n).dueTimer n).or <|
  ((laneList.findSome? fun n => (s.lane n).link.due n).or <|
  (s.dueBurstEnd.or s.dueGrant)))

/-! ### Time -/

/-- A timer that runs counts one unit down. -/
def countDown (t : Option Nat) : Option Nat := t.map fun k => k - 1

/-- The level of LDIn at the next sample: the idle level 0 when the string drives none (R58). -/
def nextLevel : List Bool → Bool
  | [] => false
  | b :: _ => b

/-- One unit of time in a lane: its timers and its link engine. -/
def Lane.advance (l : Lane) (level : Bool) : Lane :=
  { l with delayTimer := countDown l.delayTimer, periodTimer := countDown l.periodTimer,
           pulseTimer := countDown l.pulseTimer, link := l.link.advance level }

/-- One word of the burst on the port is accessed (R137); a step fetch or status write frees the port with its last. -/
def Burst.advance (b : Burst) : Option Burst :=
  if b.user.endsItself && decide (b.length ≤ b.done + 1) then none else some { b with done := b.done + 1 }

/-- 62.5 ns pass: lock timers, lane timers, link engines and the burst on the port. A sample of LDIn takes the next level. -/
def State.advance (s : State) : State :=
  { s with
    locks := s.locks.map fun l => { l with remaining := l.remaining - 1 }
    lanes := Four.ofFn fun n => (s.lane n).advance (nextLevel (s.ldi.get n))
    ldi := Four.ofFn fun n =>
      if (s.lane n).link.samples && (s.lane n).link.bitEnds then (s.ldi.get n).drop 1 else s.ldi.get n
    port := s.port.bind Burst.advance }

end Sys2Proof.Machine
end

