-- ==== Sys2Proof/Machine/Step.lean ====
section
/-! DEFINITION. One step of the block: the command at the front of the queue; on an empty queue the part goes on by itself (log
entry 2). -/

namespace Sys2Proof.Machine

/-- Three outcomes, but no event of this part faults and no row is refused: the answer of exec on the command in front, or, with
none waiting, of exec on the part's own due event, or the state after 62.5 ns. -/
def step (s : State) : Host.Outcome State Fault Refusal :=
  match s.pending with
  | c :: rest => exec c { s with pending := rest }
  | [] =>
    match s.dueEvent with
    | some c => exec c s
    | none => .next s.advance

/-- The command a table word spells is put at the front of the queue; no word of this part's table spells one. -/
def State.withFetchWord (s : State) (nbits w : Nat) : State :=
  match Sys2Proof.decodeTableWord nbits w with
  | some c => { s with pending := c :: s.pending }
  | none => s

end Sys2Proof.Machine
end

