-- ==== Sys2Proof/Safety.lean ====
section
/-! DEFINITION. The words the statements are written in: when the part can take an access at once, what a granted access leaves,
and the laws that every step keeps. -/

namespace Sys2Proof.Machine

/-! ### An access that is granted at once -/

/-- The part is out of reset, no access waits at the upstream port and the arbiter can grant one now (R140). -/
def State.ready (s : State) : Bool := s.phase == .running && s.upstream.isNone && s.accessGrantable

/-- What the grant of an access does to the upstream port and the fairness count (R140, R141). -/
def State.passed (s : State) : State := { s.countAccess with upstream := none }

/-- What a forwarded write leaves in memory and at the port (R130). -/
def State.written (s : State) (a : Access) : State := { s.passed with mem := Memory.writeSel s.mem a.addr a.data a.sel }

/-- What a read returns to the processor (R130). -/
def State.answeredRead (s : State) (addr : Addr) (sel : ByteSel) : State :=
  { s.passed with readData := returnedBytes (Memory.readWord s.mem addr) sel }

/-- The code and argument that a command row gives in its command word (section 10.5). -/
def commandWord : Instr → Option (Byte × Byte)
  | .goOffline arg => some (0x01, arg)
  | .goQuiet arg => some (0x02, arg)
  | .goOnline arg => some (0x03, arg)
  | .loadSettings arg => some (0x04, arg)
  | .loadWindows arg => some (0x05, arg)
  | .startOnce arg => some (0x10, arg)
  | .startContinuous arg => some (0x11, arg)
  | .stop arg => some (0x12, arg)
  | .abort arg => some (0x13, arg)
  | .clear arg => some (0x14, arg)
  | .markChanged arg => some (0x20, arg)
  | .releaseLocks arg => some (0x21, arg)
  | .freezeFirst arg => some (0x30, arg)
  | .freezeSecond arg => some (0x31, arg)
  | .softReset arg => some (0xA5, arg)
  | .unknownCommand code arg => some (code, arg)
  | _ => none

/-- The result of a command word (R150). -/
def resultOf (code : Byte) (outcome : CommandOutcome) (detail : Word) : Result :=
  { code := code, outcome := outcome, detail := detail }

/-- A result is set: both its status words are marked stale when it differs from the one before (R150). -/
def State.answered (s : State) (r : Result) : State :=
  { s with
    result := r
    resultMarked := if s.result = r then s.resultMarked else true
    detailMarked := if s.result = r then s.detailMarked else true }

/-- A command word other than FREEZE SECOND and its result: the word is in memory, *armed* is clear and the internal result is
set; nothing else has changed (R147, R149, R150). -/
def State.commanded (s : State) (code arg : Byte) (outcome : CommandOutcome) (detail : Word) : State :=
  { (s.written (s.commandAccess code arg)).answered (resultOf code outcome detail) with armed := false }

/-! ### The arbiter -/

/-- The class of a source's claims, 1 the highest (R137). -/
def Source.classNumber : Source → Nat
  | .commit _ | .drain _ => 1
  | .capture _ => 2
  | .fetch _ => 3
  | .table => 4
  | .status => 5

/-- How many sources of its ring a source stands behind the pointer of its class (R138). -/
def State.turn (s : State) : Source → Nat
  | .commit n => (2 * n.val + 8 - s.arbiter.commitPtr.val) % 8
  | .drain n => (2 * n.val + 9 - s.arbiter.commitPtr.val) % 8
  | .capture n => (n.val + 4 - s.arbiter.capturePtr.val) % 4
  | .fetch n => (n.val + 4 - s.arbiter.fetchPtr.val) % 4
  | .table | .status => 0

/-- The burst of a step fetch or a status write, from its grant on (R137). -/
def fetchBurst (n : Fin 4) : Burst := { user := .fetch n, length := 4, writes := [], done := 0 }

def statusBurst : Burst := { user := .status, length := 1, writes := [], done := 0 }

/-! ### The images of LOAD SETTINGS and LOAD WINDOWS -/

/-- The word of a control block offset in the nine bursts of LOAD SETTINGS: 03h–06h, then 10h–2Fh four by four (R160). -/
def settingWord (staging : List Quad) (off : Nat) : Word :=
  let q := burstAt staging (if off < 0x10 then 0 else 1 + (off - 0x10) / 4)
  match (if off < 0x10 then off - 0x03 else off % 4) with
  | 0 => q.w0
  | 1 => q.w1
  | 2 => q.w2
  | _ => q.w3

/-- The valid values of the word at an offset of the settings images, by the table of R161. -/
abbrev ValueValid (off value : Nat) : Prop :=
  (off = 0x04 → value ≤ 7) ∧ (off = 0x05 → 1 ≤ value ∧ value ≤ 255) ∧ (off = 0x06 → value ≤ 1)
  ∧ (0x10 ≤ off ∧ off ≤ 0x2F →
    (off % 8 = 0 → 2 ≤ value ∧ value ≤ 255) ∧ (off % 8 = 1 → 16 ≤ value ∧ value ≤ 1023)
    ∧ (off % 8 = 2 → value ≤ 4095 ∨ value = 0xFFFF) ∧ (off % 8 = 3 → value ≤ 7) ∧ (off % 8 = 4 → 1 ≤ value)
    ∧ (off % 8 = 5 → 1 ≤ value ∧ value ≤ 128))

abbrev SettingValid (staging : List Quad) (off : Nat) : Prop := ValueValid off (settingWord staging off).toNat

/-- The new program area of lane n shares a word with the control block, with the new area of a lower lane, or with the extent
of a used entry of the active table (R9, R161). -/
abbrev NewAreaMeets (s : State) (staging : List Quad) (n : Fin 4) : Prop :=
  let page := settingWord staging (0x12 + 8 * n.val)
  page ≠ 0xFFFF ∧ (page.toNat * 256 = s.base.toNat
    ∨ (∃ m : Fin 4, m < n ∧ settingWord staging (0x12 + 8 * m.val) = page)
    ∨ ∃ w, (s.window w).used = true ∧ page.toNat * 256 < (s.window w).base.toNat + (s.window w).size * (s.window w).count
        ∧ (s.window w).base.toNat < page.toNat * 256 + 256)

/-- The base that an image entry names: bits 3–0 of w1 above w0 (section 10.1.6). -/
def imageBase (q : Quad) : Nat := q.w1.toNat % 16 * 65536 + q.w0.toNat

def imageLength (q : Quad) : Nat := q.w2.toNat * q.w3.toNat

/-- A used image entry fails one of the first four checks of R11. -/
abbrev ImageOutOfRange (q : Quad) : Prop :=
  q.w3 ≠ 0 ∧ (256 < q.w3.toNat ∨ q.w1.extractLsb' 6 2 ≠ 0 ∨ q.w1.extractLsb' 10 6 ≠ 0
    ∨ q.w2.toNat < (if q.w1.getLsbD 8 then 2 else 1) ∨ 16 < q.w2.toNat ∨ 0xFFFFF < imageBase q + imageLength q - 1)

/-- The extent of a used image entry shares a word with the control block, with the program area of a loaded lane or with a used
entry of lower index (R11). -/
abbrev ImageOverlaps (s : State) (image : List Quad) (i : Nat) : Prop :=
  let q := burstAt image i
  q.w3 ≠ 0 ∧
    ((imageBase q < s.base.toNat + 256 ∧ s.base.toNat < imageBase q + imageLength q)
      ∨ (∃ n : Fin 4, ∃ p ∈ (s.lane n).settings.page,
          imageBase q < p.toNat * 256 + 256 ∧ p.toNat * 256 < imageBase q + imageLength q)
      ∨ ∃ j, j < i ∧ (burstAt image j).w3 ≠ 0
          ∧ imageBase q < imageBase (burstAt image j) + imageLength (burstAt image j)
          ∧ imageBase (burstAt image j) < imageBase q + imageLength q)

/-- Entry i of an image passes every check of R11. -/
abbrev ImagePasses (s : State) (image : List Quad) (i : Nat) : Prop :=
  ¬ ImageOutOfRange (burstAt image i) ∧ ¬ ImageOverlaps s image i

/-! ### Long commands -/

/-- The long command in progress has reached its finish (R12, R156, R157, R163). -/
def State.finishes (s : State) : Bool :=
  match s.engine with
  | .executing .goQuiet => s.allAtRest
  | .executing .goOffline => s.allAtRest && s.slotsEmpty
  | .executing (.drainWindows _) => s.slotsEmpty
  | .executing .softReset => s.noneForced
  | .executing (.loadSettings _) => false
  | .executing (.loadWindows _) => false
  | .idle => false

/-! ### Lanes after a command -/

/-- A lane that GO QUIET stops as it is taken: WAITING, in a WAIT step, or with only a fetch claim placed (R121). -/
def Lane.stopsAtQuiet (l : Lane) : Bool :=
  match l.state with
  | .waiting => true
  | .running | .holding => l.work == .fetchClaim || l.work == .delay || l.work == .triggerWait
  | .stopped | .faulted => false

/-- A lane after GO QUIET is taken in ONLINE (R121). -/
def Lane.quieted (l : Lane) : Lane :=
  if l.stopsAtQuiet then l.restAs .stopped else if l.active then { l with stopAtStepEnd := true } else l

/-- A lane after ABORT n or GO OFFLINE (R104, R122, R124): an active lane is STOPPED with its buffers empty and its call cut. -/
def Lane.cutToStop (l : Lane) : Lane :=
  if l.active then { l.restAs .stopped with outbound := [], inbound := [], link := l.link.cut l.settings } else l

/-- The lane that a START begins its run from: a restart has cut its work (R104, R114). -/
def Lane.cutForRestart (l : Lane) : Lane :=
  if l.active then { l with outbound := [], inbound := [], link := l.link.cut l.settings } else l

/-- A lane after START in start mode ONCE or PERIOD (R110 to R112, R115). -/
def Lane.startedAtOnce (l : Lane) (mode : StartMode) : Lane :=
  { l.cutForRestart with
    state := .running, startMode := mode, stopAtCycleEnd := false, stopAtStepEnd := false, startOwed := false,
    triggerLatch := false, work := .fetchClaim, delayTimer := none,
    periodTimer := if mode = .period then some (l.settings.period * 1600) else none,
    cycleCount := l.cycleCount + 1, stepCount := 1, stepIndex := 0 }

/-- A lane after START CONTINUOUS with a trigger source (R110, R113). -/
def Lane.startedWaiting (l : Lane) : Lane :=
  { l.cutForRestart with
    state := .waiting, startMode := .trigger, stopAtCycleEnd := false, stopAtStepEnd := false, startOwed := false,
    triggerLatch := false, work := .none, delayTimer := none, periodTimer := none }

/-- A lane that has entered RUNNING at a cycle start (R115), with step 0 to fetch. -/
def Lane.atCycleStart (l : Lane) : Lane :=
  { l with state := .running, cycleCount := l.cycleCount + 1, stepCount := 1, stepIndex := 0, work := .fetchClaim }

/-- A lane that has claimed the fetch of step `index` (R80, R81). -/
def Lane.fetching (l : Lane) (index : Fin 64) : Lane :=
  { l with stepIndex := index, stepCount := l.stepCount + 1, work := .fetchClaim }

/-- A lane as its call ends (R57, R70, R87): the engine is IDLE with its pause to pass, and the error record is set. -/
def Lane.callEnded (l : Lane) (node : BitVec 6) (outcome : CallOutcome) (status : Option (BitVec 6)) : Lane :=
  { l with
    nodeStatus := match status with
      | some x => x
      | none => l.nodeStatus
    lastError := if outcome = .ok then l.lastError
      else { code := outcome.errorCode, step := l.stepIndex, node := node.setWidth 8 }
    outbound := []
    link := { l.link with
      engine := .idle, call := none, bit := 0, sub := 0, pause := l.link.divider, held := false, received := [],
      reply := none, expected := 0, taken := 0, dataBad := false } }

/-! ### Reset -/

/-- The values a power-on or hard reset leaves (R15, R28, R54, R78, R106, R129, R134, R145, R165, R176, R177). -/
abbrev ResetValues (t : State) : Prop :=
  (∀ w, t.window w = WindowEntry.unused) ∧ t.mode = .offline ∧ (∀ w, t.changedSet w = [])
  ∧ t.locks = [] ∧ (∀ n, t.slots.get n = none) ∧ (∀ n, t.drains.get n = false)
  ∧ (∀ n, (t.lane n).link.engine = .idle ∧ (t.lane n).link.call = none ∧ (t.lane n).link.request = none
      ∧ t.lfl n = false ∧ (t.lane n).link.lck = false ∧ (t.lane n).link.ldo = false)
  ∧ (∀ n, (t.lane n).stepIndex = 0 ∧ (t.lane n).stepCount = 0 ∧ (t.lane n).step = none ∧ (t.lane n).entry = none
      ∧ (t.lane n).outbound = [] ∧ (t.lane n).inbound = [] ∧ (t.lane n).delayTimer = none
      ∧ (t.lane n).lastError = LastError.clear ∧ (t.lane n).nodeStatus = 0)
  ∧ (∀ n, (t.lane n).state = .stopped ∧ (t.lane n).startMode = .none ∧ (t.lane n).stopAtCycleEnd = false
      ∧ (t.lane n).stopAtStepEnd = false ∧ (t.lane n).startOwed = false ∧ (t.lane n).triggerLatch = false
      ∧ (t.lane n).loaded = false ∧ (t.lane n).periodTimer = none ∧ (t.lane n).pulseTimer = none
      ∧ (t.lane n).cycleCount = 0)
  ∧ (∀ n, (t.lane n).settings.divider = 8 ∧ (t.lane n).settings.replyTimeout = 64 ∧ (t.lane n).settings.page = none
      ∧ (t.lane n).settings.triggerSource = false ∧ (t.lane n).settings.halt = false
      ∧ (t.lane n).settings.activeLow = false ∧ (t.lane n).settings.period = 100 ∧ (t.lane n).settings.pulseWidth = 8)
  ∧ t.guardAddr = 0 ∧ t.guardLowMarked = false ∧ t.guardHighMarked = false
  ∧ t.port = none ∧ t.arbiter.commitPtr = 0 ∧ t.arbiter.capturePtr = 0 ∧ t.arbiter.fetchPtr = 0
  ∧ t.arbiter.fairness = 0
  ∧ t.engine = .idle ∧ t.statusValue 1 = 0 ∧ t.statusValue 2 = 0 ∧ t.resultMarked = false ∧ t.detailMarked = false
  ∧ t.armed = false ∧ t.frozen = false
  ∧ t.settings.enableA = 0 ∧ t.settings.enableB = 0 ∧ t.settings.lockTime = 16 ∧ t.settings.triggerFalling = false
  ∧ t.events = 0 ∧ t.cause = 0 ∧ t.lastCause = 0 ∧ t.irqAsserted = false ∧ t.sweep = 0
  ∧ (∀ w ∈ t.status, w.forced = true)

/-! ### The laws -/

/-- The canonical form of memory (log entry 4). -/
abbrev MemoryLaw (s : State) : Prop := Memory.wf s.mem = true

/-- The laws of the lock table (R30): at most 4 entries, no two for one record, each for a record of a used feed window with
read locking, and none while the table is inactive. -/
abbrev LockLaws (s : State) : Prop :=
  s.locks.length ≤ 4 ∧ (s.locks.map fun l => (l.window, l.record)).Nodup ∧
    ∀ l ∈ s.locks, s.tableActive = true ∧ (s.window l.window).locking = true ∧ l.record < (s.window l.window).count

/-- A used entry of a window table lies within memory and in the ranges of R1. -/
abbrev EntryInRange (e : WindowEntry) : Prop :=
  e.count ≤ 256 ∧ 1 ≤ e.size ∧ e.size ≤ 16 ∧ (e.kind = .feed → 2 ≤ e.size) ∧ e.base.toNat + e.length ≤ 1048576

/-- A window table keeps R4: its used entries are in range and disjoint from each other, from the control block and from the
program area of every loaded lane. -/
abbrev TableApart (s : State) (table : Sixteen WindowEntry) : Prop :=
  ∀ w : Fin 16, (Sixteen.get table w).used = true →
    EntryInRange (Sixteen.get table w)
    ∧ runsOverlap (Sixteen.get table w).base.toNat (Sixteen.get table w).length s.base.toNat 256 = false
    ∧ (∀ n : Fin 4, ∀ p ∈ (s.lane n).settings.page,
        runsOverlap (Sixteen.get table w).base.toNat (Sixteen.get table w).length (pageBase p) 256 = false)
    ∧ ∀ v : Fin 16, v ≠ w → (Sixteen.get table v).used = true →
        runsOverlap (Sixteen.get table w).base.toNat (Sixteen.get table w).length
          (Sixteen.get table v).base.toNat (Sixteen.get table v).length = false

/-- The program areas of the loaded lanes are apart from the control block and from each other (R161). -/
abbrev AreasApart (s : State) : Prop :=
  (∀ n : Fin 4, ∀ p ∈ (s.lane n).settings.page, runsOverlap (pageBase p) 256 s.base.toNat 256 = false)
  ∧ ∀ m n : Fin 4, m ≠ n → (s.lane m).settings.page ≠ none → (s.lane m).settings.page ≠ (s.lane n).settings.page

/-- R4 for the active table, and for a checked table that waits for the hold slots to drain (R12), with R161 for the program
areas. -/
abbrev AreaLaws (s : State) : Prop :=
  TableApart s s.table ∧ AreasApart s ∧ ∀ t, s.engine = .executing (.drainWindows t) → TableApart s t

/-- The installed settings are in the ranges that LOAD SETTINGS accepts (R161). -/
abbrev SettingsLaws (s : State) : Prop :=
  1 ≤ s.settings.lockTime ∧ s.settings.lockTime ≤ 255 ∧
    ∀ n, 2 ≤ (s.lane n).settings.divider ∧ (s.lane n).settings.divider ≤ 255
      ∧ 16 ≤ (s.lane n).settings.replyTimeout ∧ (s.lane n).settings.replyTimeout ≤ 1023
      ∧ 1 ≤ (s.lane n).settings.period ∧ (s.lane n).settings.period ≤ 65535
      ∧ 1 ≤ (s.lane n).settings.pulseWidth ∧ (s.lane n).settings.pulseWidth ≤ 128

/-- What a lane controller and its link engine may hold together: a lane at rest or between cycles has no work in hand, a call
requested or in progress belongs to that work, and no request waits beside a call (R56, R62, R107). -/
abbrev LaneLaw (l : Lane) : Prop :=
  (l.atRest = true ∨ l.state = .waiting → l.work = .none)
  ∧ (l.link.call.isSome = true ∨ l.link.request.isSome = true → l.work = .calling)
  ∧ (l.link.call.isSome = true → l.link.request = none)

/-- The laws of the lanes: LaneLaw for each, and while the table is inactive every lane is at rest (R6). -/
abbrev LaneLaws (s : State) : Prop :=
  (∀ n, LaneLaw (s.lane n)) ∧ (s.mode = .offline → ∀ n, (s.lane n).atRest = true)

/-- A LOAD WINDOWS in progress finds every lane at rest (R8, R10). -/
abbrev LoadLaw (s : State) : Prop :=
  match s.engine with
  | .executing (.loadWindows _) => ∀ n, (s.lane n).atRest = true
  | .executing (.drainWindows _) => ∀ n, (s.lane n).atRest = true
  | _ => True

/-- A record of a step's selection is in hand: claimed, captured, in a call, or waiting for its commit (R90, R93). -/
def Work.onRecord : Work → Bool
  | .captureClaim | .capturing | .calling | .commitClaim _ | .committing _ | .heldBack _ => true
  | .none | .fetchClaim | .delay | .triggerWait => false

/-- The record a lane has in hand lies in the step's selection, and the selection in its window (R85, R90, R93). -/
abbrev RecordLaw (s : State) (l : Lane) : Prop :=
  l.work.onRecord = true → ∀ sel ∈ l.selection,
    l.position < sel.first + sel.count ∧ sel.first + sel.count ≤ (s.window sel.window).count

/-- The laws of the changed sets (R16): ascending, so that each index stands once; below the record count; empty for a window
without a set and while the table is inactive. -/
abbrev ChangedLaws (s : State) : Prop :=
  ∀ w : Fin 16, (s.changedSet w).Pairwise (· < ·) ∧ (∀ k ∈ s.changedSet w, k < (s.window w).count)
    ∧ (¬ (s.tableActive = true ∧ (s.window w).tracked = true) → s.changedSet w = [])

/-- The changed sets with what keeps them: the laws of the lanes, of LOAD WINDOWS and of the records in hand. -/
abbrev TrackerLaws (s : State) : Prop :=
  LaneLaws s ∧ LoadLaw s ∧ (∀ n, RecordLaw s (s.lane n)) ∧ ChangedLaws s

/-- The entry a lane has in hand for a commit (R40, R45). -/
def Work.heldEntry : Work → Option HoldEntry
  | .commitClaim e | .committing e | .heldBack e => some e
  | .none | .fetchClaim | .captureClaim | .capturing | .calling | .delay | .triggerWait => Option.none

/-- The selection of the FETCH step in hand. -/
def Lane.fetchSelection (l : Lane) : Option Selection :=
  match l.currentStep with
  | some (.fetch _ sel) => some sel
  | _ => none

/-- Window w is a used feed window bound to lane n (R2, R85). -/
abbrev FeedOf (s : State) (n : Fin 4) (w : Fin 16) : Prop :=
  (s.window w).used = true ∧ (s.window w).kind = .feed ∧ (s.window w).lane = n

/-- An entry of lane n (R39): its record belongs to a feed window bound to the lane, and its stamp counts its data words. -/
abbrev EntryOf (s : State) (n : Fin 4) (e : HoldEntry) : Prop :=
  FeedOf s n e.window ∧ e.record < (s.window e.window).count ∧ e.stamp.count = e.data.length

/-- The laws of the hold slots (R39, R47): a held entry is its lane's, and its record is locked, or its drain claim is placed, or
its drain burst holds the port; a drain claim belongs to an occupied slot. With what keeps this so: the entries, FETCH steps and
GET calls that lanes have in hand, and that no slot stays occupied while the table is inactive, but for a GO OFFLINE that
waits for it (R157). -/
abbrev HoldLaws (s : State) : Prop :=
  (∀ n : Fin 4,
    (∀ e ∈ s.slots.get n, EntryOf s n e
      ∧ (s.locked e.window e.record = true ∨ s.drains.get n = true ∨ ∃ b ∈ s.port, b.user = .drain n))
    ∧ (s.drains.get n = true → s.slots.get n ≠ none)
    ∧ (∀ e ∈ (s.lane n).work.heldEntry, EntryOf s n e)
    ∧ ((s.lane n).work.onRecord = true → ∀ sel ∈ (s.lane n).fetchSelection, FeedOf s n sel.window)
    ∧ (∀ c ∈ (s.lane n).link.call, c.verb = .get → (s.lane n).fetchSelection ≠ none)
    ∧ ∀ c ∈ (s.lane n).link.request, c.verb = .get → (s.lane n).fetchSelection ≠ none)
  ∧ (s.mode = .offline → s.engine = .executing .goOffline ∨ ∀ n, s.slots.get n = none)

/-- The counts of the part stay in their ranges: fairness count (R140), step counts (R81), the 41 status words and the sweep
position among them (R171, R172). -/
abbrev CountLaws (s : State) : Prop :=
  s.arbiter.fairness ≤ 4 ∧ (∀ n, (s.lane n).stepCount ≤ 256) ∧ s.status.length = 41 ∧ s.sweep < 41

end Sys2Proof.Machine
end

