-- ==== Sys2Proof/Certificates/Slice0/Obligations.lean ====
section
/-! DEFINITION. What is claimed of the Ejwen 240 model. In the statements of results, `next` of an explicit state says also what
stays as it was: every field the state does not name. -/

open Sys2Proof Sys2Proof.Machine

/-! ### The block's step -/

/-- With a command at the front of the queue, a step is exec of that command on the state with the queue's rest. -/
def Obligations.StepRunsFrontCommand : Prop :=
  ∀ (c : Instr) (rest : List Instr) (s : State), s.pending = c :: rest → step s = exec c { s with pending := rest }

/-- On an empty queue a step is the part's own due event; with none due, 62.5 ns pass: the lock and lane timers count down by
one, the link engines move on, a sample takes the next level of LDIn, and the burst on the port accesses one word, with which a
step fetch or status write frees the port. Which events are due; with several, which is first is open. The model's choice, log
entries 2, 7, 17 and 18. -/
def Obligations.StepOnEmptyQueue : Prop :=
  ∀ s : State, s.pending = [] →
    (∀ c, s.dueEvent = some c → step s = exec c s
      ∧ ((∃ l ∈ s.locks, l.remaining = 0 ∧ c = .lockExpiry l.window l.record)
        ∨ (∃ n, (s.lane n).periodTimer = some 0 ∧ c = .periodTick n)
        ∨ (∃ n, (s.lane n).work = .delay ∧ (s.lane n).delayTimer = some 0 ∧ c = .waitDelayExpiry n)
        ∨ (∃ n, (s.lane n).pulseTimer = some 0 ∧ c = .pulseRunOut n)
        ∨ (∃ n, (s.lane n).link.due n = some c)
        ∨ (∃ b ∈ s.port, b.length ≤ b.done
            ∧ (c = .captureBurstEnd ∨ c = .commitBurstEnd ∨ c = .drainBurstEnd ∨ c = .commandTableReadEnd))
        ∨ (∃ a, s.upstream = some a ∧ s.accessGrantable = true ∧ c = .accessWait a)
        ∨ ∃ src, s.grantable = some src ∧ c = src.grantRow))
    ∧ (s.dueEvent = none →
      (∀ l ∈ s.locks, l.remaining ≠ 0)
      ∧ (∀ n, (s.lane n).periodTimer ≠ some 0 ∧ (s.lane n).pulseTimer ≠ some 0 ∧ (s.lane n).link.due n = none
          ∧ ((s.lane n).work = .delay → (s.lane n).delayTimer ≠ some 0))
      ∧ s.grantable = none
      ∧ step s = .next { s with
          locks := s.locks.map fun l => { l with remaining := l.remaining - 1 }
          lanes := Four.ofFn fun n => { s.lane n with
            delayTimer := (s.lane n).delayTimer.map fun k => k - 1
            periodTimer := (s.lane n).periodTimer.map fun k => k - 1
            pulseTimer := (s.lane n).pulseTimer.map fun k => k - 1
            link := (s.lane n).link.advance ((s.ldi.get n).headD false) }
          ldi := Four.ofFn fun n =>
            if ((s.lane n).link.engine = .replyWait ∨ (s.lane n).link.engine = .reply ∨ (s.lane n).link.engine = .dataWait
                ∨ (s.lane n).link.engine = .data) ∧ (s.lane n).link.divider ≤ (s.lane n).link.sub + 1
              then (s.ldi.get n).drop 1 else s.ldi.get n
          port := s.port.bind fun b =>
            if (b.user = .status ∨ ∃ n, b.user = .fetch n) ∧ b.length ≤ b.done + 1 then none
            else some { b with done := b.done + 1 } })

/-! ### Resets -/

/-- State.reset holds the values of a power-on reset and keeps every law below. Memory with nothing listed, the straps 00 and the
clear marks of the result and guard address words are the model's choices, log entries 4, 6, 23 and 26. -/
def Obligations.ResetState : Prop :=
  ResetValues State.reset ∧ State.reset.resetCause = .powerOn ∧ State.reset.phase = .running ∧ State.reset.upstream = none
    ∧ State.reset.pending = [] ∧ State.reset.mem = [] ∧ State.reset.base = 0
    ∧ MemoryLaw State.reset ∧ LockLaws State.reset ∧ HoldLaws State.reset ∧ AreaLaws State.reset ∧ SettingsLaws State.reset
    ∧ TrackerLaws State.reset ∧ CountLaws State.reset

/-- RST# asserted: every block is at its reset values, the burst is cut at its current word, nothing else of memory changes, and
the sampled straps are kept. An access that waits is granted when the cut ends the burst; a write of it into the status area is
not forwarded. That the marks of the result and guard address words are clear is the model's choice, log entries 23 and 26. -/
def Obligations.HardResetAssertOutcome : Prop :=
  ∀ (late : Nat) (s : State), s.phase ≠ .powerOnReset →
    ∃ (t : State) (m : List Host.Cell), exec (.hardResetAssert late) s = .next t ∧ ResetValues t ∧ t.phase = .hardReset
      ∧ t.resetCause = .hard ∧ t.strap = s.strap ∧ t.upstream = none ∧ t.pending = s.pending
      ∧ (∀ b, s.port = some b → m = Memory.writeAll s.mem (b.writes.take (b.done + late + 1)))
      ∧ (s.port = none → m = s.mem)
      ∧ (MemoryLaw s → ∀ a, (∀ b ∈ s.port, ∀ p ∈ b.writes, p.1 ≠ a) → Memory.readWord m a = Memory.readWord s.mem a)
      ∧ (s.upstream = none → t.mem = m ∧ t.readData = s.readData)
      ∧ ∀ a, s.upstream = some a →
        (a.write = false → t.mem = m ∧ t.readData = returnedBytes (Memory.readWord m a.addr) a.sel)
        ∧ (a.write = true → t.readData = s.readData
          ∧ t.mem = if s.base.toNat + 0x80 ≤ a.addr.toNat ∧ a.addr.toNat ≤ s.base.toNat + 0xAF then m
              else Memory.writeSel m a.addr a.data a.sel)

/-- How resets end and begin. RST# is released, or power-on reset ends: the straps select the control block base, every block is
at its reset values, every status word is to be written, and memory is kept. Supplies are good: power-on reset begins with the
reset values and the SRAM as it came up, and RST# in it changes nothing. While a reset lasts, accesses, given here as ACCESS_WAIT,
pass at a free port and no block sees them: reads are answered and writes forwarded, but for writes into the status area while
RST# is asserted, which are blocked without GUARD. That the marks of the result and guard address words are clear among
the reset values is the model's choice, log entries 23 and 26. -/
def Obligations.ResetEnds : Prop :=
  ∀ s : State,
    (∀ straps, s.phase = .hardReset → ∃ t, exec (.hardResetRelease straps) s = .next t ∧ ResetValues t ∧ t.phase = .running
      ∧ t.resetCause = .hard ∧ t.strap = straps ∧ t.mem = s.mem ∧ t.pending = s.pending ∧ t.upstream = s.upstream
      ∧ t.readData = s.readData ∧ t.status.length = s.status.length)
    ∧ (∀ straps, s.phase = .powerOnReset → ∃ t, exec (.powerOnReset straps .ends) s = .next t ∧ ResetValues t
      ∧ t.phase = .running ∧ t.resetCause = .powerOn ∧ t.strap = straps ∧ t.mem = s.mem ∧ t.pending = s.pending
      ∧ t.upstream = s.upstream ∧ t.readData = s.readData ∧ t.status.length = s.status.length)
    ∧ (∀ straps sram, ∃ t, exec (.powerOnReset straps (.suppliesGood sram)) s = .next t ∧ ResetValues t ∧ t.phase = .powerOnReset
      ∧ t.upstream = none ∧ t.pending = s.pending ∧ t.mem = Memory.writeAll [] sram ∧ t.status.length = 41)
    ∧ (∀ late straps, s.phase = .powerOnReset →
      exec (.hardResetAssert late) s = .next s ∧ exec (.hardResetRelease straps) s = .next s)
    ∧ (∀ a : Access, s.phase ≠ .running → s.port = none → s.upstream = none → s.finishes = false →
      (a.write = false → exec (.accessWait a) s = .next (s.answeredRead a.addr a.sel))
      ∧ (a.write = true → s.phase = .powerOnReset → exec (.accessWait a) s = .next (s.written a))
      ∧ (a.write = true → s.phase = .hardReset → s.frozen = false → (∀ n, (s.lane n).atRest = true) →
        exec (.accessWait a) s =
          .next (if s.base.toNat + 0x80 ≤ a.addr.toNat ∧ a.addr.toNat ≤ s.base.toNat + 0xAF then s.passed else s.written a)))
    ∧ (s.strap = 0 → s.base = 0x00000) ∧ (s.strap = 1 → s.base = 0x3FF00) ∧ (s.strap = 2 → s.base = 0x7FF00)
    ∧ (s.strap = 3 → s.base = 0xFFF00)

/-! ### Command words -/

/-- GO ONLINE: mode ONLINE; from OFFLINE every tracked changed set is filled. -/
def Obligations.GoOnlineResult : Prop :=
  ∀ (arg : Byte) (s : State), s.ready = true → s.engine = .idle → AreaLaws s →
    (s.mode = .offline → exec (.goOnline arg) s =
      .next { s.commanded 0x03 arg .done 0 with
        mode := .online
        changed := Sixteen.ofFn fun w =>
          if (s.window w).tracked then List.range (s.window w).count else s.changedSet w })
    ∧ (s.mode ≠ .offline → exec (.goOnline arg) s = .next { s.commanded 0x03 arg .done 0 with mode := .online })

/-- GO QUIET. Taken in ONLINE the mode is QUIET, each lane is stopped at once, told to stop at the step end, or left at rest, and
the command finishes at once when every lane is then at rest and is otherwise EXECUTING. Taken in QUIET it changes nothing and is
answered DONE. -/
def Obligations.GoQuietResult : Prop :=
  ∀ (arg : Byte) (s : State), s.ready = true → s.engine = .idle → AreaLaws s →
    (s.mode = .online → ∃ t, exec (.goQuiet arg) s = .next t
      ∧ t = { s.written (s.commandAccess 0x02 arg) with
          armed := false, mode := .quiet, lanes := Four.ofFn fun n => (s.lane n).quieted
          events := t.events, engine := t.engine, result := t.result, resultMarked := true, detailMarked := true }
      ∧ (∀ c, 1 ≤ c → c ≤ 19 → (t.isPending c = true ↔ s.isPending c = true
          ∨ (∃ n : Fin 4, c = 11 + n.val ∧ (s.lane n).stopsAtQuiet = true) ∨ (c = 19 ∧ t.engine = .idle)))
      ∧ ((∀ n, (s.lane n).quieted.atRest = true) → t.engine = .idle ∧ t.result = resultOf 0x02 .done 0)
      ∧ (¬ (∀ n, (s.lane n).quieted.atRest = true) →
          t.engine = .executing .goQuiet ∧ t.result = resultOf 0x02 .executing 0))
    ∧ (s.mode = .quiet → exec (.goQuiet arg) s = .next (s.commanded 0x02 arg .done 0))

/-- GO OFFLINE: mode OFFLINE, active lanes cut and STOPPED with no event, locks gone, every occupied slot claims a drain, the
changed sets empty; the command finishes at once when every slot is empty. -/
def Obligations.GoOfflineResult : Prop :=
  ∀ (arg : Byte) (s : State), s.ready = true → s.engine = .idle → AreaLaws s →
    ∃ t, exec (.goOffline arg) s = .next t
      ∧ t = { s.written (s.commandAccess 0x01 arg) with
          armed := false, mode := .offline, lanes := Four.ofFn fun n => (s.lane n).cutToStop, locks := []
          drains := Four.ofFn fun n => s.drains.get n || (s.slots.get n).isSome
          changed := Sixteen.replicate [], events := t.events, engine := t.engine, result := t.result
          resultMarked := true, detailMarked := true }
      ∧ ((∀ n, s.slots.get n = none) →
          t.engine = .idle ∧ t.result = resultOf 0x01 .done 0 ∧ t.events = s.events ||| BitVec.twoPow 19 18)
      ∧ ((∃ n, s.slots.get n ≠ none) →
          t.engine = .executing .goOffline ∧ t.result = resultOf 0x01 .executing 0 ∧ t.events = s.events)

/-- LOAD SETTINGS and LOAD WINDOWS outside freeze: with every lane at rest EXECUTING, with nothing read yet; with a lane active
LANES_ACTIVE with the lowest such lane, and nothing begins. A granted command table read takes the four image words of the next
burst into the staging copy and holds the port; when a burst before the last has ended the port is free again. -/
def Obligations.LoadsAreTakenAndRead : Prop :=
  ∀ s : State,
    (∀ arg : Byte, s.ready = true → s.engine = .idle → AreaLaws s → s.frozen = false →
      ((∀ n, (s.lane n).atRest = true) →
        exec (.loadSettings arg) s =
          .next { s.commanded 0x04 arg .executing 0 with
            engine := .executing (.loadSettings []), resultMarked := true, detailMarked := true }
        ∧ exec (.loadWindows arg) s =
          .next { s.commanded 0x05 arg .executing 0 with
            engine := .executing (.loadWindows []), resultMarked := true, detailMarked := true })
      ∧ ∀ n : Fin 4, (s.lane n).active = true → (∀ m : Fin 4, m < n → (s.lane m).atRest = true) →
        exec (.loadSettings arg) s = .next (s.commanded 0x04 arg .lanesActive (BitVec.ofNat 16 n.val))
        ∧ exec (.loadWindows arg) s = .next (s.commanded 0x05 arg .lanesActive (BitVec.ofNat 16 n.val)))
    ∧ ∀ staging : List Quad,
      (s.grantable = some .table → s.engine = .executing (.loadSettings staging) → exec .commandTableReadGrant s =
        .next { s.countGrant .table with
          engine := .executing (.loadSettings (staging ++ [Memory.readQuad s.mem
            (s.blockAddr (if staging.length = 0 then 0x03 else 0x10 + 4 * (staging.length - 1)))]))
          port := some { user := .tableRead, length := 4, writes := [], done := 0 } })
      ∧ (s.grantable = some .table → s.engine = .executing (.loadWindows staging) → exec .commandTableReadGrant s =
        .next { s.countGrant .table with
          engine := .executing (.loadWindows (staging ++ [Memory.readQuad s.mem (s.blockAddr (0x30 + 4 * staging.length))]))
          port := some { user := .tableRead, length := 4, writes := [], done := 0 } })
      ∧ ∀ done, s.port = some { user := .tableRead, length := 4, writes := [], done := done } →
        (s.engine = .executing (.loadSettings staging) → staging.length < 9 →
          exec .commandTableReadEnd s = .next { s with port := none })
        ∧ (s.engine = .executing (.loadWindows staging) → staging.length < 16 →
          exec .commandTableReadEnd s = .next { s with port := none })

/-- Commands that are refused at steps 2 to 5 of R149's list: by the mode, by freeze, by a lane argument above 3, and a START by
the lane's own state. A refused command leaves its word in memory, clears *armed* and sets the result, and nothing else. -/
def Obligations.CommandRefusals : Prop :=
  ∀ (arg : Byte) (s : State), s.ready = true → s.engine = .idle → AreaLaws s →
    (s.mode = .offline →
      exec (.goQuiet arg) s = .next (s.commanded 0x02 arg .notAvailable 0)
      ∧ exec (.markChanged arg) s = .next (s.commanded 0x20 arg .notAvailable 0)
      ∧ exec (.releaseLocks arg) s = .next (s.commanded 0x21 arg .notAvailable 0)
      ∧ exec (.startOnce arg) s = .next (s.commanded 0x10 arg .notAvailable 0)
      ∧ exec (.startContinuous arg) s = .next (s.commanded 0x11 arg .notAvailable 0))
    ∧ (s.mode = .quiet →
      exec (.startOnce arg) s = .next (s.commanded 0x10 arg .notAvailable 1)
      ∧ exec (.startContinuous arg) s = .next (s.commanded 0x11 arg .notAvailable 1))
    ∧ (s.frozen = true →
      exec (.loadSettings arg) s = .next (s.commanded 0x04 arg .frozen 0)
      ∧ exec (.loadWindows arg) s = .next (s.commanded 0x05 arg .frozen 0)
      ∧ exec (.softReset arg) s = .next (s.commanded 0xA5 arg .frozen 0))
    ∧ (4 ≤ arg.toNat →
      exec (.stop arg) s = .next (s.commanded 0x12 arg .range (arg.setWidth 16))
      ∧ exec (.abort arg) s = .next (s.commanded 0x13 arg .range (arg.setWidth 16))
      ∧ exec (.clear arg) s = .next (s.commanded 0x14 arg .range (arg.setWidth 16))
      ∧ (s.mode = .online →
        exec (.startOnce arg) s = .next (s.commanded 0x10 arg .range (arg.setWidth 16))
        ∧ exec (.startContinuous arg) s = .next (s.commanded 0x11 arg .range (arg.setWidth 16))))
    ∧ ∀ n : Fin 4, s.mode = .online → arg.toNat = n.val →
      ((s.lane n).state = .faulted →
        exec (.startOnce arg) s = .next (s.commanded 0x10 arg .state (arg.setWidth 16))
        ∧ exec (.startContinuous arg) s = .next (s.commanded 0x11 arg .state (arg.setWidth 16)))
      ∧ ((s.lane n).state ≠ .faulted → (s.lane n).loaded = false →
        exec (.startOnce arg) s = .next (s.commanded 0x10 arg .notLoaded (arg.setWidth 16))
        ∧ exec (.startContinuous arg) s = .next (s.commanded 0x11 arg .notLoaded (arg.setWidth 16)))

/-- START ONCE and START CONTINUOUS of a loaded lane that is not FAULTED: the lane begins its run, restarted if it was active,
and the tracked sets of its windows are filled. -/
def Obligations.StartResult : Prop :=
  ∀ (n : Fin 4) (arg : Byte) (s : State), s.ready = true → s.engine = .idle → AreaLaws s → s.mode = .online →
    arg.toNat = n.val → (s.lane n).state ≠ .faulted → (s.lane n).loaded = true →
    (∀ p ∈ (s.lane n).owedRecord, (s.window p.1).lane = n) →
    exec (.startOnce arg) s =
        .next { s.commanded 0x10 arg .done (arg.setWidth 16) with
          lanes := s.lanes.set n ((s.lane n).startedAtOnce .once)
          changed := Sixteen.ofFn fun w => if (s.window w).tracked && (s.window w).lane == n
            then List.range (s.window w).count else s.changedSet w }
    ∧ exec (.startContinuous arg) s =
        .next { s.commanded 0x11 arg .done (arg.setWidth 16) with
          lanes := s.lanes.set n (if (s.lane n).settings.triggerSource then (s.lane n).startedWaiting
            else (s.lane n).startedAtOnce .period)
          changed := Sixteen.ofFn fun w => if (s.window w).tracked && (s.window w).lane == n
            then List.range (s.window w).count else s.changedSet w }

/-- STOP n, by the state of the lane; a lane that comes to rest keeps neither flags, start mode, work nor timers. -/
def Obligations.StopResult : Prop :=
  ∀ (n : Fin 4) (arg : Byte) (s : State), s.ready = true → s.engine = .idle → AreaLaws s → arg.toNat = n.val →
    ((s.lane n).state = .stopped → exec (.stop arg) s = .next (s.commanded 0x12 arg .done (arg.setWidth 16)))
    ∧ ((s.lane n).state = .waiting → exec (.stop arg) s =
        .next { s.commanded 0x12 arg .done (arg.setWidth 16) with
          lanes := s.lanes.set n { s.lane n with
            state := .stopped, startMode := .none, stopAtCycleEnd := false, stopAtStepEnd := false, startOwed := false
            triggerLatch := false, work := .none, delayTimer := none, periodTimer := none, pulseTimer := none }
          events := s.events ||| BitVec.twoPow 19 (10 + n.val) })
    ∧ ((s.lane n).state = .running ∨ (s.lane n).state = .holding → exec (.stop arg) s =
        .next { s.commanded 0x12 arg .done (arg.setWidth 16) with
          lanes := s.lanes.set n { s.lane n with stopAtCycleEnd := true } })
    ∧ ((s.lane n).state = .faulted → exec (.stop arg) s = .next (s.commanded 0x12 arg .state (arg.setWidth 16)))

/-- ABORT n: an active lane is cut and STOPPED with no event, and a mirror record it had captured goes back into its changed
set; a lane at rest stays as it is. The outcome is DONE. What the cut leaves: no work, buffers, flags or timers; of a call in
progress the abort mark, at the settings' divider, after the rest of the bit time; and of a waiting request nothing. That one
that has waited on the pause is withdrawn by a cut that comes before its CALL_BEGIN is the model's choice, log entry 24. -/
def Obligations.AbortResult : Prop :=
  (∀ (n : Fin 4) (arg : Byte) (s : State), s.ready = true → s.engine = .idle → AreaLaws s → arg.toNat = n.val →
    ∃ t, exec (.abort arg) s = .next t
      ∧ t = { s.commanded 0x13 arg .done (arg.setWidth 16) with
          lanes := s.lanes.set n (s.lane n).cutToStop, changed := t.changed }
      ∧ ∀ w k, k ∈ t.changedSet w ↔ k ∈ s.changedSet w
          ∨ ((s.lane n).active = true ∧ (s.lane n).owedRecord = some (w, k) ∧ (s.window w).tracked = true))
  ∧ (∀ l : Lane,
    (l.atRest = true → l.cutToStop = l)
    ∧ (l.atRest = false → l.cutToStop = { l with
        state := .stopped, startMode := .none, stopAtCycleEnd := false, stopAtStepEnd := false, startOwed := false
        triggerLatch := false, work := .none, delayTimer := none, periodTimer := none, pulseTimer := none
        outbound := [], inbound := [], link := l.link.cut l.settings })
    ∧ ∀ w k, l.owedRecord = some (w, k) ↔
        l.work = .calling ∧ k = l.position ∧ ∃ b sel, l.currentStep = some (.send b sel) ∧ w = sel.window)
  ∧ ∀ (link : Link) (settings : LaneSettings),
    (link.call ≠ none → link.cut settings =
      { engine := .mark, divider := settings.divider, timeout := settings.replyTimeout, call := none, request := none
        bit := 0, sub := link.sub, pause := 0, held := link.ldo, received := [], reply := none, expected := 0, taken := 0
        dataBad := false })
    ∧ (link.call = none → link.cut settings = { link with request := none })

/-- CLEAR n: a FAULTED lane is STOPPED with its last error cleared and no event; any other lane gives STATE. -/
def Obligations.ClearResult : Prop :=
  ∀ (n : Fin 4) (arg : Byte) (s : State), s.ready = true → s.engine = .idle → AreaLaws s → arg.toNat = n.val →
    ((s.lane n).state = .faulted → exec (.clear arg) s =
        .next { s.commanded 0x14 arg .done (arg.setWidth 16) with
          lanes := s.lanes.set n
            { (s.lane n).restAs .stopped with lastError := { code := .none, step := 0, node := 0 } } })
    ∧ ((s.lane n).state ≠ .faulted → exec (.clear arg) s = .next (s.commanded 0x14 arg .state (arg.setWidth 16)))

/-- MARK CHANGED w, by the rows of its rule. -/
def Obligations.MarkChangedResult : Prop :=
  ∀ (arg : Byte) (s : State), s.ready = true → AreaLaws s →
    (∀ long, s.engine = .executing long → s.finishes = false → exec (.markChanged arg) s =
        .next (s.commanded 0x20 arg .busy (long.code.setWidth 16)))
    ∧ (s.engine = .idle → s.mode = .offline → exec (.markChanged arg) s =
        .next (s.commanded 0x20 arg .notAvailable 0))
    ∧ (s.engine = .idle → s.mode ≠ .offline → 16 ≤ arg.toNat →
        exec (.markChanged arg) s = .next (s.commanded 0x20 arg .range (arg.setWidth 16)))
    ∧ ∀ w : Fin 16, s.engine = .idle → s.mode ≠ .offline → arg.toNat = w.val →
      ((s.window w).tracked = false →
        exec (.markChanged arg) s = .next (s.commanded 0x20 arg .range (BitVec.ofNat 16 w.val)))
      ∧ ((s.window w).tracked = true → exec (.markChanged arg) s =
        .next { s.commanded 0x20 arg .done 0 with
          changed := Sixteen.ofFn fun v => if v = w then List.range (s.window w).count else s.changedSet v })

/-- RELEASE LOCKS, by the rows of its rule: when it is carried out no lock is left, every occupied slot claims a drain, and no
event is raised. -/
def Obligations.ReleaseLocksResult : Prop :=
  ∀ (arg : Byte) (s : State), s.ready = true → AreaLaws s →
    (∀ long, s.engine = .executing long → s.finishes = false → exec (.releaseLocks arg) s =
        .next (s.commanded 0x21 arg .busy (long.code.setWidth 16)))
    ∧ (s.engine = .idle → s.mode = .offline → exec (.releaseLocks arg) s =
        .next (s.commanded 0x21 arg .notAvailable 0))
    ∧ (s.engine = .idle → s.mode ≠ .offline → exec (.releaseLocks arg) s = .next { s.commanded 0x21 arg .done 0 with
        locks := [], drains := Four.ofFn fun n => s.drains.get n || (s.slots.get n).isSome })

/-- FREEZE FIRST and FREEZE SECOND, by *armed* and *frozen*. -/
def Obligations.FreezeResults : Prop :=
  ∀ (arg : Byte) (s : State), s.ready = true → s.engine = .idle → AreaLaws s →
    (s.frozen = false → exec (.freezeFirst arg) s = .next { s.commanded 0x30 arg .armed 0 with armed := true })
    ∧ (s.frozen = true → exec (.freezeFirst arg) s = .next (s.commanded 0x30 arg .done 0))
    ∧ (s.frozen = false → s.armed = true →
        exec (.freezeSecond arg) s = .next { s.commanded 0x31 arg .done 0 with frozen := true })
    ∧ (s.frozen = true ∨ s.armed = false → exec (.freezeSecond arg) s = .next (s.commanded 0x31 arg .state 0))

/-- SOFT RESET, stages 1 and 2 as one event; the straps, the arbiter and the status values last written are kept. -/
def Obligations.SoftResetResult : Prop :=
  ∀ (arg : Byte) (s : State), s.ready = true → s.engine = .idle → AreaLaws s → CountLaws s → s.frozen = false →
    exec (.softReset arg) s = .next { s.commanded 0xA5 arg .executing 0 with
      engine := .executing .softReset, mode := .offline, resultMarked := true, detailMarked := true
      lanes := Four.ofFn fun n => { Lane.reset with link := (s.lane n).link.cut (s.lane n).settings }
      locks := [], slots := Four.replicate none, drains := Four.replicate false, changed := Sixteen.replicate []
      table := Sixteen.replicate WindowEntry.unused
      settings := { enableA := 0, enableB := 0, lockTime := 16, triggerFalling := false }
      events := 0, guardAddr := 0, resetCause := .soft
      status := s.status.map fun w => { w with forced := true }, sweep := 0 }

/-- A code given to no command is answered UNKNOWN. A command received while the engine is EXECUTING is turned away with BUSY and
the code of the command in progress, and changes nothing else but *armed*. -/
def Obligations.UnknownAndBusy : Prop :=
  ∀ s : State, s.ready = true → AreaLaws s →
    (∀ code arg : Byte, (Instr.unknownCommand code arg).wellFormed = true → s.engine = .idle →
      exec (.unknownCommand code arg) s = .next (s.commanded code arg .unknown 0))
    ∧ ∀ (c : Instr) (code arg : Byte) (long : LongCommand), commandWord c = some (code, arg) →
      s.engine = .executing long → s.finishes = false →
      exec c s = .next { (s.written (s.commandAccess code arg)).answered (resultOf code .busy (long.code.setWidth 16)) with
        armed := if code = 0x31 then s.armed else false }

/-! ### Other processor accesses -/

/-- A write that no guard blocks and no block watches is forwarded and nothing else changes: memory takes the enabled bytes of
its word and keeps every other word. -/
def Obligations.ProcessorWriteForwarded : Prop :=
  (∀ (addr : Addr) (data : Word) (sel : ByteSel) (s : State), s.ready = true → s.finishes = false →
    s.guarded addr = false → (∀ p ∈ s.place addr, (s.window p.window).tracked = false) →
    (s.blockOffset addr = some 0 → sel ≠ .both) → s.blockOffset addr ≠ some 1 → s.blockOffset addr ≠ some 2 →
    exec (.processorWrite addr data sel) s
      = .next (s.written { write := true, addr := addr, data := data, sel := sel }))
  ∧ ∀ (a : Access) (s : State), MemoryLaw s →
    (a.sel = .both → Memory.readWord (s.written a).mem a.addr = a.data)
    ∧ (a.sel = .lower → Memory.readWord (s.written a).mem a.addr
        = joinBytes (upperByte (Memory.readWord s.mem a.addr)) (lowerByte a.data))
    ∧ (a.sel = .upper → Memory.readWord (s.written a).mem a.addr
        = joinBytes (upperByte a.data) (lowerByte (Memory.readWord s.mem a.addr)))
    ∧ ∀ b, b ≠ a.addr → Memory.readWord (s.written a).mem b = Memory.readWord s.mem b

/-- Where addresses fall in the active table, under the area laws: word j of record k of a used window lies at base + k × size + j
and maps to that window, record and word; an address that maps to a place is that word's; and while the table is inactive no
address maps. -/
def Obligations.AddressMapping : Prop :=
  ∀ s : State, AreaLaws s →
    (∀ (w : Fin 16) (k j : Nat), (s.window w).used = true → k < (s.window w).count → j < (s.window w).size →
      ((s.window w).wordAddr k j).toNat = (s.window w).base.toNat + k * (s.window w).size + j
      ∧ (s.mode ≠ .offline → s.place ((s.window w).wordAddr k j) = some { window := w, record := k, word := j }))
    ∧ (∀ (a : Addr) (p : Place), s.place a = some p →
      (s.window p.window).used = true ∧ p.record < (s.window p.window).count ∧ p.word < (s.window p.window).size
      ∧ a = (s.window p.window).wordAddr p.record p.word)
    ∧ (s.mode = .offline → ∀ a : Addr, s.place a = none)

/-- A forwarded write into a tracked mirror record adds the record to its changed set. -/
def Obligations.TrackedWriteAddsRecord : Prop :=
  ∀ (addr : Addr) (data : Word) (sel : ByteSel) (p : Place) (s : State), s.ready = true → s.finishes = false →
    AreaLaws s → s.place addr = some p → (s.window p.window).tracked = true →
    ∃ t, exec (.trackedMirrorWrite addr data sel) s = .next t
      ∧ t = { s.written { write := true, addr := addr, data := data, sel := sel } with changed := t.changed }
      ∧ ∀ w k, k ∈ t.changedSet w ↔ k ∈ s.changedSet w ∨ (w = p.window ∧ k = p.record)

/-- Which addresses are guarded outside reset; and that a write to one changes no memory, raises GUARD, sets the guard address and
marks both its status words stale. That the mark is their forced flag, whatever their values, is DEDUCED, log entry 26. -/
def Obligations.GuardBlocksWrites : Prop :=
  ∀ (addr : Addr) (s : State), s.phase = .running →
    (s.guarded addr = true ↔
      (s.base.toNat + 0x80 ≤ addr.toNat ∧ addr.toNat ≤ s.base.toNat + 0xAF)
      ∨ (s.frozen = true ∧ s.base.toNat + 0x03 ≤ addr.toNat ∧ addr.toNat ≤ s.base.toNat + 0x7F)
      ∨ ∃ n : Fin 4, ∃ p, (s.lane n).settings.page = some p ∧ p.toNat * 256 ≤ addr.toNat
          ∧ addr.toNat ≤ p.toNat * 256 + 0xFF ∧ ((s.lane n).active = true ∨ s.frozen = true))
    ∧ ∀ (data : Word) (sel : ByteSel), s.ready = true → s.finishes = false → s.guarded addr = true →
      exec (.blockedWrite addr data sel) s
        = .next { s.passed with
            guardAddr := addr, guardLowMarked := true, guardHighMarked := true, events := s.events ||| BitVec.twoPow 19 4 }

/-- A write to ACK0 or ACK1 clears the pending events whose bits it sets in the bytes it enables, and no others. A read of the
cause word returns memory and clears the event whose code it returned. -/
def Obligations.EventsCleared : Prop :=
  ∀ (sel : ByteSel) (s : State), s.ready = true → s.finishes = false → AreaLaws s →
    (∀ (second : Bool) (data : Word), ∃ t, exec (.acknowledgeWrite second data sel) s = .next t
      ∧ t = { s.written { write := true, addr := s.blockAddr (if second then 2 else 1), data := data, sel := sel } with
          events := t.events }
      ∧ ∀ c, 1 ≤ c → c ≤ 19 → (t.isPending c = true ↔ s.isPending c = true ∧
          ¬ ((second = false ∧ c ≤ 8 ∧ sel ≠ .upper ∧ data.getLsbD (c - 1) = true)
            ∨ (second = false ∧ 9 ≤ c ∧ c ≤ 16 ∧ sel ≠ .lower ∧ data.getLsbD (c - 1) = true)
            ∨ (second = true ∧ 17 ≤ c ∧ sel ≠ .upper ∧ data.getLsbD (c - 17) = true))))
    ∧ ∃ t, exec (.causeRead sel) s = .next t
      ∧ t = { s.answeredRead (s.blockAddr 0x83) sel with events := t.events }
      ∧ ∀ c, 1 ≤ c → c ≤ 19 → (t.isPending c = true ↔ s.isPending c = true ∧
          ¬ ((sel = .both ∧ (Memory.readWord s.mem (s.blockAddr 0x83)).toNat = c)
            ∨ (sel = .lower ∧ (lowerByte (Memory.readWord s.mem (s.blockAddr 0x83))).toNat = c)))

/-- A read of the first word of a record with read locking locks the record, evicting the oldest lock of a full table; a record
already locked is left as it is. A read of its stamp releases the lock with no event, and a slot that holds the record claims a
drain; the stamp of an unlocked record is only returned. -/
def Obligations.LockingReads : Prop :=
  ∀ (addr : Addr) (sel : ByteSel) (w : Fin 16) (k : Nat) (s : State), s.ready = true → s.finishes = false → AreaLaws s →
    (s.window w).locking = true →
    (s.place addr = some { window := w, record := k, word := 0 } →
      (s.locked w k = true → exec (.firstWordRead addr sel) s = .next (s.answeredRead addr sel))
      ∧ (s.locked w k = false → s.locks.length < 4 → exec (.firstWordRead addr sel) s =
        .next { s.answeredRead addr sel with
          locks := s.locks ++ [{ window := w, record := k, remaining := s.settings.lockTime * 64 }] })
      ∧ (s.locked w k = false → LockLaws s → ∀ oldest rest, s.locks = oldest :: rest → rest.length = 3 →
        exec (.firstWordRead addr sel) s =
        .next { s.answeredRead addr sel with
          locks := rest ++ [{ window := w, record := k, remaining := s.settings.lockTime * 64 }]
          drains := Four.ofFn fun n => s.drains.get n || slotHolds (s.slots.get n) oldest.window oldest.record
          events := s.events ||| BitVec.twoPow 19 5 }))
    ∧ (s.place addr = some { window := w, record := k, word := (s.window w).size - 1 } →
      (s.locked w k = true → exec (.stampRead addr sel) s =
        .next { s.answeredRead addr sel with
          locks := s.locks.filter fun l => !(l.window == w && l.record == k)
          drains := Four.ofFn fun n => s.drains.get n || slotHolds (s.slots.get n) w k })
      ∧ (s.locked w k = false → exec (.stampRead addr sel) s = .next (s.answeredRead addr sel)))

/-- An access that the arbiter cannot grant waits with HWAIT# asserted and nothing else changes; one that it can is granted. -/
def Obligations.AccessWaits : Prop :=
  ∀ (a : Access) (s : State), s.upstream = none →
    (s.accessGrantable = false →
      exec (.accessWait a) s = .next { s with upstream := some a } ∧ ({ s with upstream := some a } : State).hwaitAsserted = true)
    ∧ (s.accessGrantable = true → exec (.accessWait a) s = .next (s.grantAccess a).settle
        ∧ (s.grantAccess a).settle.hwaitAsserted = false)

/-! ### Grants and burst ends -/

/-- What the arbiter grants at a free port, by the claims, the waiting access and the fairness count; which claims wait; that the
first source with a claim, from the pointer round the ring of the highest class with one, is chosen; what a grant does to the
count and the pointers. A grant row that finds a step fetch or status write on the port comes after its end (log entry 7). -/
def Obligations.ArbiterRule : Prop :=
  ∀ s : State,
    (s.port ≠ none → s.accessGrantable = false ∧ s.grantable = none)
    ∧ (s.port = none → s.claimWaiting = false →
        s.accessGrantable = true ∧ s.grantable = none ∧ s.countAccess.arbiter.fairness = 0)
    ∧ (s.port = none → s.claimWaiting = true → s.upstream = none → s.grantable = s.bridgeChoice)
    ∧ (s.port = none → s.claimWaiting = true → s.arbiter.fairness ≤ 3 →
        s.accessGrantable = true ∧ s.countAccess.arbiter.fairness = s.arbiter.fairness + 1
          ∧ (s.upstream ≠ none → s.grantable = none))
    ∧ (s.port = none → s.claimWaiting = true → 4 ≤ s.arbiter.fairness →
        s.accessGrantable = false ∧ s.grantable = s.bridgeChoice)
    ∧ (s.claimWaiting = true ↔ ∃ src : Source, s.claims src = true)
    ∧ (s.phase ≠ .running → ∀ src : Source, s.claims src = false)
    ∧ (s.phase = .running → s.port = none →
      (∀ n : Fin 4, (s.claims (.commit n) = true ↔ ∃ e, (s.lane n).work = .commitClaim e)
        ∧ (s.claims (.drain n) = true ↔ s.drains.get n = true)
        ∧ (s.claims (.capture n) = true ↔ (s.lane n).work = .captureClaim)
        ∧ (s.claims (.fetch n) = true ↔ (s.lane n).work = .fetchClaim))
      ∧ (s.claims .table = true ↔
          ∃ staging, s.engine = .executing (.loadSettings staging) ∨ s.engine = .executing (.loadWindows staging))
      ∧ (s.claims .status = true ↔ ∃ i, i < 41 ∧ s.stale i = true))
    ∧ (∀ src : Source, s.bridgeChoice = some src → s.claims src = true ∧
        ∀ other : Source, s.claims other = true → src.classNumber < other.classNumber
          ∨ (src.classNumber = other.classNumber ∧ s.turn src ≤ s.turn other))
    ∧ (∀ src : Source, (s.countGrant src).arbiter.fairness = 0)
    ∧ (∀ n : Fin 4, (s.countGrant (.commit n)).arbiter.commitPtr.val = 2 * n.val + 1
      ∧ (s.countGrant (.drain n)).arbiter.commitPtr.val = (2 * n.val + 2) % 8
      ∧ (s.countGrant (.capture n)).arbiter.capturePtr.val = (n.val + 1) % 4
      ∧ (s.countGrant (.fetch n)).arbiter.fetchPtr.val = (n.val + 1) % 4)
    ∧ ∀ b, s.port = some b → (b.user = .status ∨ ∃ n, b.user = .fetch n) →
      exec .stepFetchGrant s = exec .stepFetchGrant { s with port := none }
      ∧ exec .captureGrant s = exec .captureGrant { s with port := none }
      ∧ exec .commitGrant s = exec .commitGrant { s with port := none }
      ∧ exec .drainGrant s = exec .drainGrant { s with port := none }
      ∧ exec .commandTableReadGrant s = exec .commandTableReadGrant { s with port := none }
      ∧ exec .statusWriteGrant s = exec .statusWriteGrant { s with port := none }

/-- When a step record passes its checks, kind by kind, for every record: kind and option, zero fields, ranges, and for SEND and
FETCH the window they name. A step record that fails its checks is BAD_STEP: its lane faults at that step, and keeps neither
flags, start mode, work nor timers. -/
def Obligations.StepChecks : Prop :=
  ∀ (n : Fin 4) (s : State),
    (∀ (q : Quad) (w : Fin 16) (first count : Nat) (node : BitVec 6) (option : Bool),
      w.val = (q.w1.extractLsb' 12 4).toNat → first = (q.w1.extractLsb' 0 8).toNat →
      count = (q.w2.extractLsb' 0 8).toNat + 1 → node = q.w0.extractLsb' 0 6 → option = q.w0.getLsbD 8 →
      (q.w0.extractLsb' 9 3 ≠ 0 ∨ q.w0.extractLsb' 6 2 ≠ 0 ∨ q.w0.extractLsb' 12 4 = 0 ∨ 8 ≤ (q.w0.extractLsb' 12 4).toNat →
        s.checkedStep n q = none)
      ∧ (q.w0.extractLsb' 9 3 = 0 → q.w0.extractLsb' 6 2 = 0 →
        (q.w0.extractLsb' 12 4 = 1 → s.checkedStep n q =
          if q.w1.extractLsb' 8 4 = 0 ∧ q.w2.extractLsb' 8 8 = 0 ∧ q.w3 = 0
              ∧ (s.window w).used = true ∧ (s.window w).kind = .mirror ∧ (s.window w).lane = n
              ∧ first + count ≤ (s.window w).count ∧ (node = 63 ∨ node.toNat + count - 1 ≤ 62)
              ∧ (option = false ∨ (s.window w).option = true)
            then some (.send option { window := w, first := first, count := count, node := node }) else none)
        ∧ (q.w0.extractLsb' 12 4 = 2 → s.checkedStep n q =
          if q.w1.extractLsb' 8 4 = 0 ∧ q.w2.extractLsb' 8 8 = 0 ∧ q.w3 = 0
              ∧ (s.window w).used = true ∧ (s.window w).kind = .feed ∧ (s.window w).lane = n
              ∧ first + count ≤ (s.window w).count ∧ node ≠ 63 ∧ node.toNat + count - 1 ≤ 62
            then some (.fetch option { window := w, first := first, count := count, node := node }) else none)
        ∧ (q.w0.extractLsb' 12 4 = 3 → s.checkedStep n q =
          if q.w1 = 0 ∧ (option = true ∨ q.w3 = 0)
            then some (.inline node (if option then [q.w2, q.w3] else [q.w2])) else none)
        ∧ (q.w0.extractLsb' 12 4 = 4 → s.checkedStep n q =
          if node = 0 ∧ q.w1 = 0 ∧ q.w2 = 0 ∧ q.w3 = 0 then some (.pulse option) else none)
        ∧ (q.w0.extractLsb' 12 4 = 5 → option = false → s.checkedStep n q =
          if node = 0 ∧ q.w1 = 0 ∧ q.w2 = 0 ∧ q.w3 ≠ 0 then some (.wait q.w3.toNat) else none)
        ∧ (q.w0.extractLsb' 12 4 = 5 → option = true → s.checkedStep n q =
          if node = 0 ∧ q.w1 = 0 ∧ q.w2 = 0 ∧ q.w3 = 0 ∧ (s.lane n).startMode ≠ .trigger then some .waitTrigger else none)
        ∧ (∀ target : Fin 64, q.w0.extractLsb' 12 4 = 6 → q.w3.toNat = target.val → s.checkedStep n q =
          if option = false ∧ node = 0 ∧ q.w1 = 0 ∧ q.w2 = 0 then some (.jump target) else none)
        ∧ (q.w0.extractLsb' 12 4 = 6 → 64 ≤ q.w3.toNat → s.checkedStep n q = none)
        ∧ (q.w0.extractLsb' 12 4 = 7 → s.checkedStep n q =
          if option = false ∧ node = 0 ∧ q.w1 = 0 ∧ q.w2 = 0 ∧ q.w3 = 0 then some .finish else none)))
    ∧ (s.grantable = some (.fetch n) →
      s.checkedStep n (Memory.readQuad s.mem (s.lane n).stepAddr) = none →
      exec .stepFetchGrant s = .next ({ s.countGrant (.fetch n) with
        lanes := s.lanes.set n { s.lane n with
          step := some (Memory.readQuad s.mem (s.lane n).stepAddr), entry := none
          lastError := { code := .badStep, step := (s.lane n).stepIndex, node := 0xFF }
          state := .faulted, startMode := .none, stopAtCycleEnd := false, stopAtStepEnd := false, startOwed := false
          triggerLatch := false, work := .none, delayTimer := none, periodTimer := none, pulseTimer := none }
        port := some (fetchBurst n), events := s.events ||| BitVec.twoPow 19 n.val } : State).settle)

/-- An INLINE step requests a CTL call with its one or two words, as CallBeginAndMarkEnd says what a request comes to. A WAIT step
of d µs loads the delay timer; a trigger WAIT waits, or with the trigger latch set consumes it and ends. A PULSE step starts the
pulse, with the mark option raises MARK(n), and ends. The fetch burst holds the port; the end of a step is as NextStepResult
says. -/
def Obligations.InlineWaitAndPulseSteps : Prop :=
  ∀ (n : Fin 4) (q : Quad) (l : Lane) (s : State), s.grantable = some (.fetch n) → s.finishes = false →
    Memory.readQuad s.mem (s.lane n).stepAddr = q →
    l = { s.lane n with step := some q, entry := none, work := .none } →
    (∀ node words, s.checkedStep n q = some (.inline node words) →
      exec .stepFetchGrant s = .next { s.countGrant (.fetch n) with
        lanes := s.lanes.set n
          (l.requestCall { verb := .ctl, node := node, words := words, requested := 0, exact := false })
        port := some (fetchBurst n) })
    ∧ (∀ d, s.checkedStep n q = some (.wait d) →
      exec .stepFetchGrant s = .next { s.countGrant (.fetch n) with
        lanes := s.lanes.set n { l with work := .delay, delayTimer := some (d * 16) }, port := some (fetchBurst n) })
    ∧ (s.checkedStep n q = some .waitTrigger → l.triggerLatch = false →
      exec .stepFetchGrant s = .next { s.countGrant (.fetch n) with
        lanes := s.lanes.set n { l with work := .triggerWait }, port := some (fetchBurst n) })
    ∧ (s.checkedStep n q = some .waitTrigger → l.triggerLatch = true →
      exec .stepFetchGrant s = .next (({ s.countGrant (.fetch n) with
        lanes := s.lanes.set n { l with triggerLatch := false }, port := some (fetchBurst n) } : State).endStep n).settle)
    ∧ (s.checkedStep n q = some (.pulse false) →
      exec .stepFetchGrant s = .next (({ s.countGrant (.fetch n) with
        lanes := s.lanes.set n { l with pulseTimer := some (l.settings.pulseWidth * 16) }
        port := some (fetchBurst n) } : State).endStep n).settle)
    ∧ (s.checkedStep n q = some (.pulse true) →
      exec .stepFetchGrant s = .next (({ s.countGrant (.fetch n) with
        lanes := s.lanes.set n { l with pulseTimer := some (l.settings.pulseWidth * 16) }
        port := some (fetchBurst n), events := s.events ||| BitVec.twoPow 19 (14 + n.val) } : State).endStep n).settle)

/-- A SEND step claims the capture of its first record, or of its first member with the changed-only option, and ends when it has
none; told to stop at the step end, a changed-only step looks at its first record alone. A FETCH step requests the GET call of
its first record. Record k of a selection from first to node a goes to node a + (k − first), or to 63 when a is 63. -/
def Obligations.SendAndFetchSteps : Prop :=
  (∀ (n : Fin 4) (q : Quad) (sel : Selection) (l : Lane) (s : State), s.grantable = some (.fetch n) → s.finishes = false →
    Memory.readQuad s.mem (s.lane n).stepAddr = q →
    l = { s.lane n with step := some q, entry := some (s.window sel.window), work := .none } →
    (s.checkedStep n q = some (.send false sel) → exec .stepFetchGrant s = .next { s.countGrant (.fetch n) with
      lanes := s.lanes.set n { l with position := sel.first, work := .captureClaim }, port := some (fetchBurst n) })
    ∧ (∀ k, s.checkedStep n q = some (.send true sel) → sel.first ≤ k → k < sel.first + sel.count →
      k ∈ s.changedSet sel.window → (∀ j, sel.first ≤ j → j < k → j ∉ s.changedSet sel.window) →
      (l.stopAtStepEnd = true → k = sel.first) →
      exec .stepFetchGrant s = .next { s.countGrant (.fetch n) with
        lanes := s.lanes.set n { l with position := k, work := .captureClaim }, port := some (fetchBurst n) })
    ∧ (s.checkedStep n q = some (.send true sel) →
      (∀ j, sel.first ≤ j → j < sel.first + sel.count → l.stopAtStepEnd = false ∨ j = sel.first →
        j ∉ s.changedSet sel.window) →
      exec .stepFetchGrant s = .next (({ s.countGrant (.fetch n) with
        lanes := s.lanes.set n { l with position := sel.first + sel.count - 1 }
        port := some (fetchBurst n) } : State).endStep n).settle)
    ∧ ∀ exact, s.checkedStep n q = some (.fetch exact sel) → exec .stepFetchGrant s =
      .next { s.countGrant (.fetch n) with
        lanes := s.lanes.set n (({ l with position := sel.first, inbound := [] } : Lane).requestCall
          { verb := .get, node := sel.nodeOf sel.first, words := [], requested := (s.window sel.window).size - 1, exact := exact })
        port := some (fetchBurst n) })
  ∧ ∀ (sel : Selection) (k : Nat), sel.first ≤ k → k < sel.first + sel.count →
    (sel.node = 63 → sel.nodeOf k = 63)
    ∧ (sel.node ≠ 63 → sel.node.toNat + sel.count - 1 ≤ 62 → (sel.nodeOf k).toNat = sel.node.toNat + (k - sel.first))

/-- The end of a step at index i other than JUMP and END, and of a JUMP: a lane told to stop at the step end is STOPPED with
DONE(n); otherwise the next index is fetched, i + 1 or the target; with 256 steps fetched in the cycle the lane faults RUNAWAY
at that index; and after index 63 it faults BAD_STEP at 63. That the stop is seen before both faults is the model's choice, log
entry 13. -/
def Obligations.NextStepResult : Prop :=
  (∀ (n : Fin 4) (s : State),
    ((s.lane n).stopAtStepEnd = true → s.endStep n = { s with
      lanes := s.lanes.set n ((s.lane n).restAs .stopped), events := s.events ||| BitVec.twoPow 19 (10 + n.val) })
    ∧ ((s.lane n).stopAtStepEnd = false → (s.lane n).stepIndex = 63 → s.endStep n = { s with
      lanes := s.lanes.set n { (s.lane n).restAs .faulted with lastError := { code := .badStep, step := 63, node := 0xFF } }
      events := s.events ||| BitVec.twoPow 19 n.val })
    ∧ ∀ i : Fin 64, (s.lane n).stopAtStepEnd = false → i.val = (s.lane n).stepIndex.val + 1 →
      ((s.lane n).stepCount < 256 → s.endStep n = { s with lanes := s.lanes.set n { s.lane n with
        stepIndex := i, stepCount := (s.lane n).stepCount + 1, work := .fetchClaim } })
      ∧ (256 ≤ (s.lane n).stepCount → s.endStep n = { s with
        lanes := s.lanes.set n { (s.lane n).restAs .faulted with
          stepIndex := i, lastError := { code := .runaway, step := i, node := 0xFF } }
        events := s.events ||| BitVec.twoPow 19 n.val }))
  ∧ ∀ (n : Fin 4) (i : Fin 64) (q : Quad) (s : State), s.grantable = some (.fetch n) →
    q = { w0 := 0x6000, w1 := 0, w2 := 0, w3 := BitVec.ofNat 16 i.val } →
    Memory.readQuad s.mem (s.lane n).stepAddr = q →
    ((s.lane n).stopAtStepEnd = true → exec .stepFetchGrant s = .next ({ s.countGrant (.fetch n) with
      lanes := s.lanes.set n { (s.lane n).restAs .stopped with step := some q, entry := none }
      port := some (fetchBurst n), events := s.events ||| BitVec.twoPow 19 (10 + n.val) } : State).settle)
    ∧ ((s.lane n).stopAtStepEnd = false → (s.lane n).stepCount < 256 →
      exec .stepFetchGrant s = .next ({ s.countGrant (.fetch n) with
        lanes := s.lanes.set n { (s.lane n).fetching i with step := some q, entry := none }
        port := some (fetchBurst n) } : State).settle)
    ∧ ((s.lane n).stopAtStepEnd = false → 256 ≤ (s.lane n).stepCount →
      exec .stepFetchGrant s = .next ({ s.countGrant (.fetch n) with
        lanes := s.lanes.set n { (s.lane n).restAs .faulted with
          step := some q, entry := none, stepIndex := i, lastError := { code := .runaway, step := i, node := 0xFF } }
        port := some (fetchBurst n), events := s.events ||| BitVec.twoPow 19 n.val } : State).settle)

/-- An END step: a stop flag or start mode ONCE stops the lane with DONE(n), an owed start begins the next cycle, and otherwise
the lane waits. -/
def Obligations.EndStepResult : Prop :=
  ∀ (n : Fin 4) (l : Lane) (s : State), s.grantable = some (.fetch n) →
    Memory.readQuad s.mem (s.lane n).stepAddr = { w0 := 0x7000, w1 := 0, w2 := 0, w3 := 0 } →
    l = { s.lane n with step := some { w0 := 0x7000, w1 := 0, w2 := 0, w3 := 0 }, entry := none, work := .none } →
    (l.stopAtCycleEnd = true ∨ l.stopAtStepEnd = true ∨ l.startMode = .once →
      exec .stepFetchGrant s = .next ({ s.countGrant (.fetch n) with
        lanes := s.lanes.set n (l.restAs .stopped), port := some (fetchBurst n)
        events := s.events ||| BitVec.twoPow 19 (10 + n.val) } : State).settle)
    ∧ (l.stopAtCycleEnd = false → l.stopAtStepEnd = false → l.startMode ≠ .once → l.startOwed = true →
      exec .stepFetchGrant s = .next ({ s.countGrant (.fetch n) with
        lanes := s.lanes.set n { l.atCycleStart with startOwed := false }, port := some (fetchBurst n) } : State).settle)
    ∧ (l.stopAtCycleEnd = false → l.stopAtStepEnd = false → l.startMode ≠ .once → l.startOwed = false →
      exec .stepFetchGrant s = .next ({ s.countGrant (.fetch n) with
        lanes := s.lanes.set n { l with state := .waiting }, port := some (fetchBurst n) } : State).settle)

/-- A granted capture takes the record out of its changed set, reads its words into the outbound buffer and holds the port; when
its burst ends the port is free and the lane requests the PUT call of the captured record. -/
def Obligations.CaptureResult : Prop :=
  ∀ (n : Fin 4) (b : Bool) (sel : Selection) (s : State), (s.lane n).currentStep = some (.send b sel) →
    (s.grantable = some (.capture n) → s.finishes = false → ∃ t, exec .captureGrant s = .next t
      ∧ t = { s.countGrant (.capture n) with
          lanes := s.lanes.set n { s.lane n with
            work := .capturing
            outbound := (List.range (s.window sel.window).size).map fun j =>
              Memory.readWord s.mem ((s.window sel.window).wordAddr (s.lane n).position j) }
          port := some { user := .capture n, length := (s.window sel.window).size, writes := [], done := 0 }
          changed := t.changed }
      ∧ ∀ w k, k ∈ t.changedSet w ↔ k ∈ s.changedSet w
          ∧ ¬ (w = sel.window ∧ k = (s.lane n).position ∧ (s.window w).tracked = true))
    ∧ ∀ len done, s.port = some { user := .capture n, length := len, writes := [], done := done } → s.finishes = false →
      (s.lane n).work = .capturing →
      exec .captureBurstEnd s = .next { s with
        port := none
        lanes := s.lanes.set n ((s.lane n).requestCall
          { verb := .put, node := sel.nodeOf (s.lane n).position, words := (s.lane n).outbound, requested := 0, exact := false }) }

/-- The commit decision for an entry of lane n (R41), by the lock of its record and the lane's hold slot. A resolved commit goes
on as State.commitResolved says. -/
def Obligations.CommitDecision : Prop :=
  ∀ (n : Fin 4) (e : HoldEntry) (s : State), s.grantable = some (.commit n) →
    (s.lane n).work = .commitClaim e →
    (s.locked e.window e.record = false → slotHolds (s.slots.get n) e.window e.record = false →
      exec .commitGrant s = .next ({ s.countGrant (.commit n) with
        lanes := s.lanes.set n { s.lane n with work := .committing e }
        port := some { user := .commit n, length := e.data.length + 1, writes := s.entryWrites e, done := 0 } } : State).settle)
    ∧ (s.locked e.window e.record = false → slotHolds (s.slots.get n) e.window e.record = true →
      exec .commitGrant s = .next ({ s.countGrant (.commit n) with
        lanes := s.lanes.set n { s.lane n with work := .committing e.asReplacement }
        slots := s.slots.set n none, drains := s.drains.set n false
        port := some { user := .commit n, length := e.data.length + 1, writes := s.entryWrites e.asReplacement, done := 0 } } : State).settle)
    ∧ (s.locked e.window e.record = true → s.slots.get n = none →
      exec .commitGrant s = .next
        (({ s.countGrant (.commit n) with slots := s.slots.set n (some e) } : State).commitResolved n e).settle)
    ∧ (s.locked e.window e.record = true → slotHolds (s.slots.get n) e.window e.record = true →
      exec .commitGrant s = .next
        (({ s.countGrant (.commit n) with slots := s.slots.set n (some e.asReplacement) } : State).commitResolved n e).settle)
    ∧ (s.locked e.window e.record = true → s.slots.get n ≠ none → slotHolds (s.slots.get n) e.window e.record = false →
      exec .commitGrant s = .next ({ s.countGrant (.commit n) with
        lanes := s.lanes.set n { s.lane n with state := .holding, work := .heldBack e } } : State).settle)

/-- What a lane does when a commit is resolved, by R96: it faults on a failed call under HALT, ends the step after the last
record or when it is to stop, and otherwise takes the next record. That the inbound buffer is empty from then on is the model's
choice, log entry 22. -/
def Obligations.ResolvedCommitGoesOn : Prop :=
  ∀ (n : Fin 4) (e : HoldEntry) (x : Bool) (sel : Selection) (l : Lane) (s : State),
    (s.lane n).currentStep = some (.fetch x sel) → l = { s.lane n with inbound := [] } →
    ((e.stamp.outcome.isFailure = true ∧ l.settings.halt = true) →
      s.commitResolved n e = { s with
        lanes := s.lanes.set n (l.restAs .faulted), events := s.events ||| BitVec.twoPow 19 n.val })
    ∧ (¬ (e.stamp.outcome.isFailure = true ∧ l.settings.halt = true) →
        l.stopAtStepEnd = true ∨ sel.first + sel.count ≤ l.position + 1 →
        s.commitResolved n e = ({ s with lanes := s.lanes.set n l } : State).endStep n)
    ∧ (¬ (e.stamp.outcome.isFailure = true ∧ l.settings.halt = true) → l.stopAtStepEnd = false →
        l.position + 1 < sel.first + sel.count → s.commitResolved n e = { s with
          lanes := s.lanes.set n (({ l with position := l.position + 1 } : Lane).requestCall
            { verb := .get, node := sel.nodeOf (l.position + 1), words := [], requested := l.getCount, exact := x }) })

/-- When a commit or drain burst ends its words are in memory, each at its address, no other word has changed, and the port is
free: a commit is then resolved; a drain has emptied its slot, and a HOLDING lane of the slot claims its commit again. -/
def Obligations.WriteBurstEnds : Prop :=
  ∀ (n : Fin 4) (len done : Nat) (writes : List (Addr × Word)) (s : State),
    (∀ e, s.port = some { user := .commit n, length := len, writes := writes, done := done } →
      (s.lane n).work = .committing e → exec .commitBurstEnd s = .next
        (({ s with mem := Memory.writeAll s.mem writes, port := none } : State).commitResolved n e).settle)
    ∧ (∀ e, s.port = some { user := .drain n, length := len, writes := writes, done := done } →
      (s.lane n).state = .holding → (s.lane n).work = .heldBack e → exec .drainBurstEnd s = .next ({ s with
        mem := Memory.writeAll s.mem writes, port := none, slots := s.slots.set n none, drains := s.drains.set n false
        lanes := s.lanes.set n { s.lane n with state := .running, work := .commitClaim e } } : State).settle)
    ∧ (s.port = some { user := .drain n, length := len, writes := writes, done := done } →
      (s.lane n).state ≠ .holding → exec .drainBurstEnd s = .next ({ s with
        mem := Memory.writeAll s.mem writes, port := none, slots := s.slots.set n none, drains := s.drains.set n false } : State).settle)
    ∧ (MemoryLaw s →
      (∀ a, (∀ p ∈ writes, p.1 ≠ a) → Memory.readWord (Memory.writeAll s.mem writes) a = Memory.readWord s.mem a)
      ∧ ((writes.map fun p => p.1).Nodup → ∀ p ∈ writes, Memory.readWord (Memory.writeAll s.mem writes) p.1 = p.2))

/-- A granted drain writes the entry if its record is unlocked; otherwise the entry stays and the claim is gone. The words that
a drain or commit of an entry writes are its data words in order from word 0 of the record on, and then the stamp at the last,
each at an address of its own; and the fields of a stamp. -/
def Obligations.DrainGrantResult : Prop :=
  (∀ (e : HoldEntry) (s : State),
    (∀ n : Fin 4, s.grantable = some (.drain n) → s.finishes = false → s.slots.get n = some e →
      (s.locked e.window e.record = false → exec .drainGrant s = .next { s.countGrant (.drain n) with
        drains := s.drains.set n false
        port := some { user := .drain n, length := e.data.length + 1, writes := s.entryWrites e, done := 0 } })
      ∧ (s.locked e.window e.record = true →
        exec .drainGrant s = .next { s.countGrant (.drain n) with drains := s.drains.set n false }))
    ∧ (s.entryWrites e).length = e.data.length + 1
    ∧ (∀ j, ∀ h : j < e.data.length,
        (s.entryWrites e)[j]? = some ((s.window e.window).wordAddr e.record j, e.data[j]))
    ∧ (s.entryWrites e)[e.data.length]?
        = some ((s.window e.window).wordAddr e.record ((s.window e.window).size - 1), e.stamp.word)
    ∧ (AreaLaws s → (s.window e.window).used = true → e.record < (s.window e.window).count →
        e.data.length < (s.window e.window).size → ((s.entryWrites e).map fun p => p.1).Nodup))
  ∧ ∀ st : Stamp, st.count < 32 → st.word.toNat = st.count * 2048
      + (match st.outcome with
        | .ok => 0 | .noAnswer => 1 | .nodeFault => 2 | .notAccepted => 3 | .parity => 4 | .short => 5 | .truncated => 6) * 256
      + (if st.replaced then 128 else 0) + st.tag.toNat

/-- When a long command finishes: its final result, which marks both result words stale, CMDDONE and IDLE come together, at the
first moment its rule gives; until then the state stays as it is. -/
def Obligations.LongCommandsFinish : Prop :=
  ∀ s : State,
    (s.finishes = false → s.settle = s)
    ∧ (s.engine = .executing .goQuiet → (∀ n, (s.lane n).atRest = true) → s.settle = { s with
      engine := .idle, result := resultOf 0x02 .done 0
      resultMarked := true, detailMarked := true, events := s.events ||| BitVec.twoPow 19 18 })
    ∧ (s.engine = .executing .goOffline → (∀ n, (s.lane n).atRest = true) → (∀ n, s.slots.get n = none) →
      s.settle = { s with
        engine := .idle, result := resultOf 0x01 .done 0
        resultMarked := true, detailMarked := true, events := s.events ||| BitVec.twoPow 19 18 })
    ∧ (∀ table, s.engine = .executing (.drainWindows table) → s.mode ≠ .offline → (∀ n, s.slots.get n = none) →
      s.settle = { s with
        engine := .idle, result := resultOf 0x05 .done 0
        resultMarked := true, detailMarked := true, events := s.events ||| BitVec.twoPow 19 18
        table := table, locks := []
        changed := Sixteen.ofFn fun w =>
          if (Sixteen.get table w).tracked then List.range (Sixteen.get table w).count else [] })
    ∧ (s.engine = .executing .softReset → (∀ w ∈ s.status, w.forced = false) → s.settle = { s with
      engine := .idle, result := resultOf 0xA5 .done 0
      resultMarked := true, detailMarked := true, events := s.events ||| BitVec.twoPow 19 18 })

/-- The ninth burst of LOAD SETTINGS: the first word out of range, or else the first lane whose area overlaps, ends the command
and nothing is installed; with neither, the settings are installed as one event, each from its word of the image. CMDDONE is
raised in each case. -/
def Obligations.LoadSettingsFinishes : Prop :=
  ∀ (staging : List Quad) (done : Nat) (s : State),
    s.port = some { user := .tableRead, length := 4, writes := [], done := done } →
    s.engine = .executing (.loadSettings staging) → staging.length = 9 →
    (∀ off : Nat, ¬ SettingValid staging off → (∀ o, o < off → SettingValid staging o) →
      exec .commandTableReadEnd s = .next { s with
        port := none, engine := .idle, result := resultOf 0x04 .range (BitVec.ofNat 16 off)
        resultMarked := true, detailMarked := true
        events := s.events ||| BitVec.twoPow 19 18 })
    ∧ (∀ n : Fin 4, (∀ off, SettingValid staging off) → NewAreaMeets s staging n →
      (∀ m : Fin 4, m < n → ¬ NewAreaMeets s staging m) →
      exec .commandTableReadEnd s = .next { s with
        port := none, engine := .idle, result := resultOf 0x04 .overlap (BitVec.ofNat 16 n.val)
        resultMarked := true, detailMarked := true
        events := s.events ||| BitVec.twoPow 19 18 })
    ∧ ((∀ off, SettingValid staging off) → (∀ n : Fin 4, ¬ NewAreaMeets s staging n) →
      exec .commandTableReadEnd s = .next { s with
        port := none, engine := .idle, result := resultOf 0x04 .done 0
        resultMarked := true, detailMarked := true, events := s.events ||| BitVec.twoPow 19 18
        settings := { enableA := settingWord staging 0x03, enableB := (settingWord staging 0x04).setWidth 3
                      lockTime := (settingWord staging 0x05).toNat
                      triggerFalling := (settingWord staging 0x06).getLsbD 0 }
        lanes := Four.ofFn fun n => { s.lane n with
          settings := {
            divider := (settingWord staging (0x10 + 8 * n.val)).toNat
            replyTimeout := (settingWord staging (0x11 + 8 * n.val)).toNat
            page := if settingWord staging (0x12 + 8 * n.val) = 0xFFFF then none
              else some ((settingWord staging (0x12 + 8 * n.val)).setWidth 12)
            triggerSource := (settingWord staging (0x13 + 8 * n.val)).getLsbD 0
            halt := (settingWord staging (0x13 + 8 * n.val)).getLsbD 1
            activeLow := (settingWord staging (0x13 + 8 * n.val)).getLsbD 2
            period := (settingWord staging (0x14 + 8 * n.val)).toNat
            pulseWidth := (settingWord staging (0x15 + 8 * n.val)).toNat } } })

/-- The last burst of LOAD WINDOWS: the first entry that fails a check ends the command with its outcome and index, and nothing
changes; otherwise the sixteen entries of the image are installed, at once while the table is inactive or no slot is occupied,
and with the table active after every lock has been released and every occupied slot has claimed its drain. What each entry of
the image describes. -/
def Obligations.LoadWindowsFinishes : Prop :=
  (∀ (image : List Quad) (done : Nat) (s : State),
    s.port = some { user := .tableRead, length := 4, writes := [], done := done } →
    s.engine = .executing (.loadWindows image) → image.length = 16 →
    (∀ i, i < 16 → (∀ j, j < i → ImagePasses s image j) → ImageOutOfRange (burstAt image i) →
      exec .commandTableReadEnd s = .next { s with
        port := none, engine := .idle, result := resultOf 0x05 .range (BitVec.ofNat 16 i)
        resultMarked := true, detailMarked := true
        events := s.events ||| BitVec.twoPow 19 18 })
    ∧ (∀ i, i < 16 → (∀ j, j < i → ImagePasses s image j) → ¬ ImageOutOfRange (burstAt image i) → ImageOverlaps s image i →
      exec .commandTableReadEnd s = .next { s with
        port := none, engine := .idle, result := resultOf 0x05 .overlap (BitVec.ofNat 16 i)
        resultMarked := true, detailMarked := true
        events := s.events ||| BitVec.twoPow 19 18 })
    ∧ ((∀ i, i < 16 → ImagePasses s image i) →
      (s.mode = .offline → exec .commandTableReadEnd s = .next { s with
        port := none, engine := .idle, result := resultOf 0x05 .done 0
        resultMarked := true, detailMarked := true, events := s.events ||| BitVec.twoPow 19 18
        table := tableOfImage image, changed := Sixteen.replicate [] })
      ∧ (s.mode ≠ .offline → (∃ n, s.slots.get n ≠ none) →
        exec .commandTableReadEnd s = .next { s with
          port := none, engine := .executing (.drainWindows (tableOfImage image)), locks := []
          drains := Four.ofFn fun n => s.drains.get n || (s.slots.get n).isSome })
      ∧ (s.mode ≠ .offline → (∀ n, s.slots.get n = none) →
        exec .commandTableReadEnd s = .next { s with
          port := none, engine := .idle, result := resultOf 0x05 .done 0
          resultMarked := true, detailMarked := true, events := s.events ||| BitVec.twoPow 19 18
          table := tableOfImage image, locks := []
          changed := Sixteen.ofFn fun w =>
            if (Sixteen.get (tableOfImage image) w).tracked then List.range (Sixteen.get (tableOfImage image) w).count
            else [] })))
  ∧ ∀ (image : List Quad) (w : Fin 16) (q : Quad) (e : WindowEntry), q = burstAt image w.val →
    e = Sixteen.get (tableOfImage image) w →
    (q.w3 = 0 → e = { base := 0, lane := 0, kind := .mirror, option := false, size := 0, count := 0 })
    ∧ (q.w3 ≠ 0 → e.base.toNat = q.w1.toNat % 16 * 65536 + q.w0.toNat ∧ e.lane.val = q.w1.toNat / 16 % 4
      ∧ (e.kind = .feed ↔ q.w1.getLsbD 8 = true) ∧ e.option = q.w1.getLsbD 9 ∧ e.size = q.w2.toNat ∧ e.count = q.w3.toNat)

/-- A status write puts the chosen word's value of this moment into memory and books it: the word is no longer forced, nor marked
when it is a result or guard address word; the cause word does not move the sweep. Its burst of one word holds the port. -/
def Obligations.StatusWriteResult : Prop :=
  ∀ (i : Nat) (s : State), s.grantable = some .status → s.statusChoice = some i →
    (i = 3 → exec .statusWriteGrant s = .next ({ s.countGrant .status with
      mem := Memory.writeWord s.mem (s.blockAddr 0x83) (BitVec.ofNat 16 s.cause)
      status := s.status.set 3 { written := BitVec.ofNat 16 s.cause, forced := false }, lastCause := s.cause
      port := some statusBurst } : State).settle)
    ∧ (i ≠ 3 → exec .statusWriteGrant s = .next ({ s.countGrant .status with
      mem := Memory.writeWord s.mem (s.blockAddr (if i < 9 then 0x80 + i else 0x90 + (i - 9))) (s.statusValue i)
      status := s.status.set i { written := s.statusValue i, forced := false }, sweep := (i + 1) % 41
      resultMarked := if i = 1 then false else s.resultMarked, detailMarked := if i = 2 then false else s.detailMarked
      guardLowMarked := if i = 6 then false else s.guardLowMarked
      guardHighMarked := if i = 7 then false else s.guardHighMarked
      port := some statusBurst } : State).settle)

/-- The value of every status word, word for word; the cause as the lowest code both pending and enabled; when a word is stale;
that a result that differs from the one before leaves both result words stale, and an equal one changes nothing; and the word
that a status write chooses: the cause word when it is stale, else the first stale one from the sweep position. That a result sets
the forced flag of R171 for the two result words, and a blocked write for the two guard address words, is DEDUCED, log entries
23 and 26. -/
def Obligations.StatusWordValues : Prop :=
  ∀ s : State,
    (s.statusValue 0).toNat = (match s.mode with | .offline => 0 | .quiet => 1 | .online => 2)
      + (if s.frozen then 4 else 0) + (if s.armed then 8 else 0) + (if s.engine = .idle then 0 else 16)
      + (match s.resetCause with | .powerOn => 32 | .hard => 64 | .soft => 96) + s.strap.toNat * 256
    ∧ (s.statusValue 1).toNat = s.result.code.toNat * 256
      + (match s.result.outcome with
        | .done => 0 | .busy => 1 | .notAvailable => 2 | .range => 3 | .overlap => 4 | .lanesActive => 5 | .frozen => 6
        | .unknown => 7 | .armed => 8 | .state => 9 | .notLoaded => 10 | .executing => 255)
    ∧ s.statusValue 2 = s.result.detail
    ∧ (s.statusValue 3).toNat = s.cause
    ∧ s.cause ≤ 19
    ∧ (∀ c, 1 ≤ c → c ≤ 19 → (s.cause = c ↔
        (s.isPending c = true ∧ s.settings.enables.getLsbD (c - 1) = true)
        ∧ ∀ d, 1 ≤ d → d < c → ¬ (s.isPending d = true ∧ s.settings.enables.getLsbD (d - 1) = true)))
    ∧ (∀ j, j < 19 → s.settings.enables.getLsbD j
        = if j < 16 then s.settings.enableA.getLsbD j else s.settings.enableB.getLsbD (j - 16))
    ∧ (∀ j, j < 16 → (s.statusValue 4).getLsbD j = s.isPending (j + 1)
        ∧ (s.statusValue 5).getLsbD j = (decide (j < 3) && s.isPending (j + 17)))
    ∧ (s.statusValue 6).toNat = s.guardAddr.toNat % 65536 ∧ (s.statusValue 7).toNat = s.guardAddr.toNat / 65536
    ∧ (s.locks.length ≤ 4 → (s.statusValue 8).toNat = s.locks.length
        + (if s.slots.get 0 ≠ none then 256 else 0) + (if s.slots.get 1 ≠ none then 512 else 0)
        + (if s.slots.get 2 ≠ none then 1024 else 0) + (if s.slots.get 3 ≠ none then 2048 else 0))
    ∧ (∀ n : Fin 4,
      (s.statusValue (9 + 8 * n.val)).toNat
        = (match (s.lane n).state with | .stopped => 0 | .waiting => 1 | .running => 2 | .holding => 3 | .faulted => 4)
          + (if (s.lane n).stopAtCycleEnd then 256 else 0) + (if (s.lane n).stopAtStepEnd then 512 else 0)
          + (if (s.lane n).startOwed then 1024 else 0) + (if (s.lane n).triggerLatch then 2048 else 0)
          + (if (s.lane n).settings.page ≠ none then 4096 else 0)
      ∧ (s.statusValue (10 + 8 * n.val)).toNat = (s.lane n).stepIndex.val
      ∧ s.statusValue (11 + 8 * n.val) = (s.lane n).cycleCount
      ∧ (s.statusValue (12 + 8 * n.val)).toNat
        = (match (s.lane n).lastError.code with
          | .none => 0 | .noAnswer => 1 | .notAccepted => 2 | .parity => 3 | .short => 4 | .truncated => 5 | .badStep => 6
          | .runaway => 7 | .nodeFault => 8)
      ∧ (s.statusValue (13 + 8 * n.val)).toNat = (s.lane n).lastError.step.val
      ∧ (s.statusValue (14 + 8 * n.val)).toNat = (s.lane n).lastError.node.toNat
      ∧ (s.statusValue (15 + 8 * n.val)).toNat = (s.lane n).nodeStatus.toNat
      ∧ (s.slots.get n = none → s.statusValue (16 + 8 * n.val) = 0xFFFF)
      ∧ ∀ e, s.slots.get n = some e → e.record < 256 →
          (s.statusValue (16 + 8 * n.val)).toNat = e.window.val * 4096 + e.record)
    ∧ (∀ (i : Nat) (w : StatusSlot), s.status[i]? = some w →
        (s.stale i = true ↔ w.forced = true ∨ s.statusValue i ≠ w.written
          ∨ (i = 1 ∧ s.resultMarked = true) ∨ (i = 2 ∧ s.detailMarked = true)
          ∨ (i = 6 ∧ s.guardLowMarked = true) ∨ (i = 7 ∧ s.guardHighMarked = true)))
    ∧ (∀ r : Result, (s.result ≠ r → (s.answered r).stale 1 = true ∧ (s.answered r).stale 2 = true)
        ∧ (s.result = r → s.answered r = s))
    ∧ (s.statusChoice = none ↔ ∀ i, i < 41 → s.stale i = false)
    ∧ (s.stale 3 = true → s.statusChoice = some 3)
    ∧ (s.stale 3 = false → s.sweep < 41 → ∀ i, s.statusChoice = some i ↔ i < 41 ∧ s.stale i = true
        ∧ ∀ j, j < 41 → s.stale j = true → (i + 41 - s.sweep) % 41 ≤ (j + 41 - s.sweep) % 41)

/-- IRQ# outside reset: the last-written cause is nonzero and names an event pending and enabled; during reset it is released. -/
def Obligations.InterruptLine : Prop :=
  ∀ s : State, (s.phase ≠ .running → s.irqAsserted = false)
    ∧ (s.phase = .running → s.lastCause ≤ 19 → (s.irqAsserted = true ↔
        s.lastCause ≠ 0 ∧ s.isPending s.lastCause = true ∧
        ((s.lastCause ≤ 16 ∧ s.settings.enableA.getLsbD (s.lastCause - 1) = true)
          ∨ (17 ≤ s.lastCause ∧ s.settings.enableB.getLsbD (s.lastCause - 17) = true))))

/-! ### The string link -/

/-- The words that a call sends: the header's fields, and for each word the start bit, its data bits from bit 15 down, and a
parity bit that makes the ones odd. -/
def Obligations.WordsOnTheLane : Prop :=
  (∀ w : Word, (frame w).length = 18 ∧ (frame w)[0]? = some true
    ∧ (∀ j : Fin 16, (frame w)[j.val + 1]? = some (w.getLsbD (15 - j.val)))
    ∧ ((frame w).drop 1).count true % 2 = 1)
  ∧ ∀ c : Call, sentBits c = (c.header :: c.words).flatMap frame
    ∧ (c.verb = .put → c.words.length < 256 → c.header.toNat = c.node.toNat * 1024 + c.words.length)
    ∧ (c.verb = .get → c.requested < 256 → c.header.toNat = c.node.toNat * 1024 + 256 + c.requested)
    ∧ (c.verb = .ctl → c.words.length < 256 → c.header.toNat = c.node.toNat * 1024 + 512 + c.words.length)

/-- A unit of 62.5 ns in a link engine: the pause runs down in IDLE, and in the other states the bit time runs, at whose end the
engine goes on by its state and, where it samples, by the level of LDIn: words of 18 bit times, two of TURNAROUND, one sample a
bit time in a wait, 17 samples of a word. When the engine's own events are due, with the word that 17 samples spell; and the
levels of LDOn and LCKn. The unit and the place of the rest of a cut bit time are the model's choices, log entries 2 and 16. -/
def Obligations.LinkTimePasses : Prop :=
  (∀ (l : Link) (level : Bool),
    (l.engine = .idle → l.advance level = { l with pause := l.pause - 1 })
    ∧ (l.engine ≠ .idle → l.sub + 1 < l.divider → l.advance level = { l with sub := l.sub + 1 })
    ∧ (l.divider ≤ l.sub + 1 →
      (∀ c, l.engine = .send → l.call = some c →
        (l.bit + 1 < 18 * (1 + c.words.length) → l.advance level = { l with sub := 0, bit := l.bit + 1 })
        ∧ (18 * (1 + c.words.length) ≤ l.bit + 1 → l.advance level =
            { l with sub := 0, bit := 0, engine := if c.node = 63 then .tail else .turnaround }))
      ∧ (l.engine = .turnaround → l.advance level =
          if l.bit = 0 then { l with sub := 0, bit := 1 } else { l with sub := 0, bit := 0, engine := .replyWait })
      ∧ (l.engine = .replyWait → l.advance level =
          if level then { l with sub := 0, bit := 0, received := [], engine := .reply }
          else { l with sub := 0, bit := l.bit + 1 })
      ∧ (l.engine = .dataWait → l.advance level =
          if level then { l with sub := 0, bit := 0, received := [], engine := .data }
          else { l with sub := 0, bit := l.bit + 1 })
      ∧ (l.engine = .reply ∨ l.engine = .data → l.advance level =
          { l with sub := 0, bit := l.bit + 1, received := l.received ++ [level] })
      ∧ (l.engine = .tail ∨ l.engine = .mark → l.advance level = { l with sub := 0, bit := l.bit + 1 })))
  ∧ (∀ (l : Link) (n : Fin 4),
    (l.engine = .idle → l.due n = if l.request ≠ none ∧ l.pause = 0 then some (.callBegin n) else none)
    ∧ (l.engine = .send ∨ l.engine = .turnaround → l.due n = none)
    ∧ (l.engine = .replyWait → l.due n = if l.timeout ≤ l.bit then some (.replyWaitTimeout n) else none)
    ∧ (l.engine = .dataWait → l.due n = if l.timeout ≤ l.bit then some (.dataWaitTimeout n) else none)
    ∧ (l.engine = .tail → l.due n = if 8 ≤ l.bit then some (.broadcastTailEnd n) else none)
    ∧ (l.engine = .mark → l.due n = if 1 + 40 ≤ l.bit then some (.abortMarkEnd n) else none)
    ∧ (l.engine = .reply ∨ l.engine = .data → l.bit < 17 → l.due n = none)
    ∧ ∀ (w : Word) (p : Bool), l.received = dataBits w ++ [p] → 17 ≤ l.bit →
      (l.engine = .reply → l.due n = some (.replyReceived n w p))
      ∧ (l.engine = .data → l.due n = some (.dataWordReceived n w p)))
  ∧ ∀ l : Link,
    (∀ c, l.engine = .send → l.call = some c → l.ldo = (sentBits c).getD l.bit false)
    ∧ (l.engine = .mark → l.ldo = if l.bit = 0 then l.held else true)
    ∧ (l.engine ≠ .send → l.engine ≠ .mark → l.ldo = false)
    ∧ (l.lck = true ↔ l.engine ≠ .idle ∧ l.divider ≤ 2 * l.sub)

/-- A call that a lane requests begins at once with the engine IDLE and its pause passed, and waits otherwise. A call begins with
the settings' divider and timeout, the received count cleared and the header to send. When an abort mark ends the engine is IDLE
and a pause of one bit time is to pass. That a queued CALL_BEGIN or ABORT_MARK_END is taken whatever is left of the pause or of
the mark is the model's choice, log entry 3. -/
def Obligations.CallBeginAndMarkEnd : Prop :=
  (∀ (l : Lane) (c : Call),
    (l.link.engine = .idle ∧ l.link.pause = 0 → l.requestCall c = { l with
      work := .calling, inbound := []
      link := { engine := .send, divider := l.settings.divider, timeout := l.settings.replyTimeout, call := some c,
                request := none, bit := 0, sub := 0, pause := 0, held := false, received := [], reply := none, expected := 0,
                taken := 0, dataBad := false } })
    ∧ (¬ (l.link.engine = .idle ∧ l.link.pause = 0) → l.requestCall c = { l with
      work := .calling, link := { l.link with request := some c } }))
  ∧ ∀ (n : Fin 4) (s : State), s.finishes = false →
    (∀ c, (s.lane n).link.engine = .idle → (s.lane n).link.request = some c →
      exec (.callBegin n) s = .next { s with
        lanes := s.lanes.set n { s.lane n with
          inbound := []
          link := { engine := .send, divider := (s.lane n).settings.divider, timeout := (s.lane n).settings.replyTimeout,
                    call := some c, request := none, bit := 0, sub := 0, pause := 0, held := false, received := [],
                    reply := none, expected := 0, taken := 0, dataBad := false } } })
    ∧ ((s.lane n).link.engine = .mark → exec (.abortMarkEnd n) s = .next { s with
        lanes := s.lanes.set n { s.lane n with
          link := { (s.lane n).link with
            engine := .idle, call := none, bit := 0, sub := 0, pause := (s.lane n).link.divider, held := false
            received := [], reply := none, expected := 0, taken := 0, dataBad := false } } })

/-- The outcome of a PUT or CTL by its reply word, and which of these are failures; the node status is handed on with a good
reply. That a queued reply is taken in any engine state of the call before its end is the model's choice, log entry 3. -/
def Obligations.PutOrCtlReply : Prop :=
  (∀ (n : Fin 4) (c : Call) (word : Word) (parity : Bool) (s : State), (s.lane n).link.awaitsReply = true →
    (s.lane n).link.call = some c → c.verb ≠ .get →
    (goodWord word parity = false → exec (.replyReceived n word parity) s = .next (s.endCall n c .parity none).settle)
    ∧ (goodWord word parity = true → word.getLsbD 15 = false → exec (.replyReceived n word parity) s =
        .next (s.endCall n c .notAccepted (some (word.extractLsb' 8 6))).settle)
    ∧ (goodWord word parity = true → word.getLsbD 15 = true → word.getLsbD 14 = true →
        exec (.replyReceived n word parity) s = .next (s.endCall n c .nodeFault (some (word.extractLsb' 8 6))).settle)
    ∧ (goodWord word parity = true → word.getLsbD 15 = true → word.getLsbD 14 = false →
        exec (.replyReceived n word parity) s = .next (s.endCall n c .ok (some (word.extractLsb' 8 6))).settle))
  ∧ CallOutcome.isFailure .parity = true ∧ CallOutcome.isFailure .notAccepted = true
  ∧ CallOutcome.isFailure .nodeFault = false ∧ CallOutcome.isFailure .ok = false

/-- A GET's reply word: a bad or refusing one ends the call; an accepting one with d = min(AVAIL, requested) above 0 opens the
data phase, and with d = 0 ends the call. That a queued reply is taken in any engine state of the call before its end is the
model's choice, log entry 3. -/
def Obligations.GetReply : Prop :=
  ∀ (n : Fin 4) (c : Call) (word : Word) (parity : Bool) (s : State), (s.lane n).link.awaitsReply = true →
    (s.lane n).link.call = some c → c.verb = .get →
    (goodWord word parity = false → exec (.replyReceived n word parity) s = .next (s.endCall n c .parity none).settle)
    ∧ (goodWord word parity = true → word.getLsbD 15 = false → exec (.replyReceived n word parity) s =
        .next (s.endCall n c .notAccepted (some (word.extractLsb' 8 6))).settle)
    ∧ (goodWord word parity = true → word.getLsbD 15 = true → s.finishes = false →
        0 < min (word.toNat % 256) c.requested → exec (.replyReceived n word parity) s = .next { s with
          lanes := s.lanes.set n { s.lane n with
            link := { (s.lane n).link with
              engine := .dataWait, bit := 0, sub := 0, received := [], reply := some word
              expected := min (word.toNat % 256) c.requested, taken := 0, dataBad := false } } })
    ∧ (goodWord word parity = true → word.getLsbD 15 = true → min (word.toNat % 256) c.requested = 0 →
        exec (.replyReceived n word parity) s = .next (s.endCall n c
          (if c.exact = true ∧ word.toNat % 256 < c.requested then .short
            else if word.getLsbD 14 = true then .nodeFault else .ok)
          (some (word.extractLsb' 8 6))).settle)

/-- A data word before the last goes to the inbound buffer when it is good and is noted when it is bad; the last one also ends
the call, with the outcome by its first condition that applies. That a queued data word is taken in DATA whether or not its 17
samples have come is the model's choice, log entry 3. -/
def Obligations.DataWordTaken : Prop :=
  ∀ (n : Fin 4) (c : Call) (reply word : Word) (parity bad : Bool) (l : Lane) (s : State), s.finishes = false →
    (s.lane n).link.engine = .data → (s.lane n).link.call = some c → (s.lane n).link.reply = some reply →
    bad = ((s.lane n).link.dataBad || !goodWord word parity) →
    l = { s.lane n with
      inbound := if goodWord word parity = true then (s.lane n).inbound ++ [word] else (s.lane n).inbound
      link := { (s.lane n).link with
        engine := .dataWait, bit := 0, sub := 0, received := [], taken := (s.lane n).link.taken + 1, dataBad := bad } } →
    ((s.lane n).link.taken + 1 < (s.lane n).link.expected →
      exec (.dataWordReceived n word parity) s = .next { s with lanes := s.lanes.set n l })
    ∧ ((s.lane n).link.taken + 1 = (s.lane n).link.expected →
      exec (.dataWordReceived n word parity) s = .next
        (({ s with lanes := s.lanes.set n l } : State).endCall n c
          (if bad = true then .parity
            else if c.exact = true ∧ reply.toNat % 256 < c.requested then .short
            else if reply.getLsbD 14 = true then .nodeFault else .ok)
          (some (reply.extractLsb' 8 6))).settle)

/-- A reply wait that times out ends the call NO_ANSWER, a data wait that does ends it TRUNCATED with the reply's node status,
and a broadcast ends OK with the end of its tail. That these queued events are taken whether or not the samples or the eight bit
times have run out is the model's choice, log entry 3. -/
def Obligations.CallsEndWithoutReply : Prop :=
  ∀ (n : Fin 4) (c : Call) (s : State), (s.lane n).link.call = some c →
    ((s.lane n).link.engine = .replyWait → c.node ≠ 63 →
      exec (.replyWaitTimeout n) s = .next (s.endCall n c .noAnswer none).settle)
    ∧ (∀ reply, (s.lane n).link.engine = .dataWait → (s.lane n).link.reply = some reply →
      exec (.dataWaitTimeout n) s = .next (s.endCall n c .truncated (some (reply.extractLsb' 8 6))).settle)
    ∧ ((s.lane n).link.engine = .tail → c.node = 63 →
      exec (.broadcastTailEnd n) s = .next (s.endCall n c .ok none).settle)

/-- A GET that has ended leaves its entry: the received words unless the outcome is a failure, and a stamp of their count, the
outcome and the cycle's tag; the lane claims the commit. -/
def Obligations.GetEndBuildsEntry : Prop :=
  ∀ (n : Fin 4) (c : Call) (outcome : CallOutcome) (status : Option (BitVec 6)) (x : Bool) (sel : Selection)
    (words : List Word) (s : State), c.verb = .get → (s.lane n).currentStep = some (.fetch x sel) →
    words = (if outcome.isFailure = true then [] else (s.lane n).inbound) →
    s.endCall n c outcome status = { s with
      lanes := s.lanes.set n { (s.lane n).callEnded c.node outcome status with
        inbound := words
        work := .commitClaim
          { window := sel.window, record := (s.lane n).position, data := words
            stamp := { count := words.length, outcome := outcome, replaced := false
                       tag := (s.lane n).cycleCount.setWidth 7 } } } }

/-- A PUT or CTL that has ended: a failure under HALT faults the lane. Otherwise an INLINE step ends; a SEND step ends after its
last record, or here when the lane is to stop, and else claims its next record, with the changed-only option the next member of
the changed set, ending when there is none. The record of a failed PUT is back in its changed set. The end of a step is as
NextStepResult says, where a stop before BAD_STEP or RUNAWAY is the model's choice, log entry 13. -/
def Obligations.PutOrCtlEndGoesOn : Prop :=
  ∀ (n : Fin 4) (c : Call) (outcome : CallOutcome) (status : Option (BitVec 6)) (l : Lane) (s : State),
    l = (s.lane n).callEnded c.node outcome status →
    (∀ node words, c.verb = .ctl → (s.lane n).currentStep = some (.inline node words) →
      ((outcome.isFailure = true ∧ l.settings.halt = true) → s.endCall n c outcome status = { s with
          lanes := s.lanes.set n (l.restAs .faulted), events := s.events ||| BitVec.twoPow 19 n.val })
      ∧ (¬ (outcome.isFailure = true ∧ l.settings.halt = true) →
        s.endCall n c outcome status = ({ s with lanes := s.lanes.set n l } : State).endStep n))
    ∧ ∀ x sel, c.verb = .put → (s.lane n).currentStep = some (.send x sel) →
      (∀ w k, k ∈ (s.endCall n c outcome status).changedSet w ↔ k ∈ s.changedSet w
        ∨ (outcome.isFailure = true ∧ (s.window w).tracked = true ∧ w = sel.window ∧ k = l.position))
      ∧ ((outcome.isFailure = true ∧ l.settings.halt = true) → s.endCall n c outcome status = { s with
          lanes := s.lanes.set n (l.restAs .faulted), events := s.events ||| BitVec.twoPow 19 n.val
          changed := (s.endCall n c outcome status).changed })
      ∧ (¬ (outcome.isFailure = true ∧ l.settings.halt = true) →
        l.stopAtStepEnd = true ∨ sel.first + sel.count ≤ l.position + 1 →
        s.endCall n c outcome status = { ({ s with lanes := s.lanes.set n l } : State).endStep n with
          changed := (s.endCall n c outcome status).changed })
      ∧ (¬ (outcome.isFailure = true ∧ l.settings.halt = true) → l.stopAtStepEnd = false →
        l.position + 1 < sel.first + sel.count →
        (x = false → s.endCall n c outcome status = { s with
          lanes := s.lanes.set n { l with position := l.position + 1, work := .captureClaim }
          changed := (s.endCall n c outcome status).changed })
        ∧ (∀ k, x = true → l.position < k → k < sel.first + sel.count → k ∈ s.changedSet sel.window →
          (∀ j, l.position < j → j < k → j ∉ s.changedSet sel.window) →
          s.endCall n c outcome status = { s with
            lanes := s.lanes.set n { l with position := k, work := .captureClaim }
            changed := (s.endCall n c outcome status).changed })
        ∧ (x = true → (∀ j, l.position < j → j < sel.first + sel.count → j ∉ s.changedSet sel.window) →
          s.endCall n c outcome status =
            { ({ s with lanes := s.lanes.set n { l with position := sel.first + sel.count - 1 } } : State).endStep n with
              changed := (s.endCall n c outcome status).changed }))

/-! ### Timers and the trigger -/

/-- An expired lock is removed, LOCKDROP is raised and a slot that holds the record claims its drain. That a queued expiry is
taken whatever time remains, and changes nothing for a record that is not locked, are the model's choices, log entries 3 and
1. -/
def Obligations.LockExpiryResult : Prop :=
  ∀ (w : Fin 16) (k : Nat) (s : State), s.finishes = false →
    (s.locked w k = true → exec (.lockExpiry w k) s = .next { s with
      locks := s.locks.filter fun l => !(l.window == w && l.record == k)
      drains := Four.ofFn fun n => s.drains.get n || slotHolds (s.slots.get n) w k
      events := s.events ||| BitVec.twoPow 19 5 })
    ∧ (s.locked w k = false → exec (.lockExpiry w k) s = .next s)

/-- A period tick: a WAITING lane begins a cycle, a RUNNING or HOLDING one raises LATE(n) and owes a start; the timer runs on for
a full period. The delay of a WAIT step runs out: the step ends, as NextStepResult says, where a stop before BAD_STEP or RUNAWAY
is the model's choice, log entry 13. The width of a pulse runs out: LFLn is at its inactive level and the lane stays as it is.
That these queued events are taken whatever is left on the timers is the model's choice, log entry 3. -/
def Obligations.LaneTimersRunOut : Prop :=
  ∀ (n : Fin 4) (s : State),
    (∀ left, s.finishes = false → (s.lane n).periodTimer = some left →
      ((s.lane n).state = .waiting → exec (.periodTick n) s = .next { s with
        lanes := s.lanes.set n { (s.lane n).atCycleStart with
          periodTimer := some ((s.lane n).settings.period * 1600) } })
      ∧ ((s.lane n).state = .running ∨ (s.lane n).state = .holding → exec (.periodTick n) s = .next { s with
        lanes := s.lanes.set n { s.lane n with
          startOwed := true, periodTimer := some ((s.lane n).settings.period * 1600) }
        events := s.events ||| BitVec.twoPow 19 (6 + n.val) }))
    ∧ ((s.lane n).work = .delay → exec (.waitDelayExpiry n) s = .next (({ s with
      lanes := s.lanes.set n { s.lane n with delayTimer := none } } : State).endStep n).settle)
    ∧ (s.finishes = false → ∃ t, exec (.pulseRunOut n) s = .next t
      ∧ t = { s with lanes := s.lanes.set n { s.lane n with pulseTimer := none } }
      ∧ (s.phase = .running → t.lfl n = (s.lane n).settings.activeLow))

/-- The selected edge on TRIG reaches all four lanes, each by its state and start mode, with the events that this raises and no
others; the opposite edge has no effect. The end of a trigger WAIT is as NextStepResult says, where a stop before BAD_STEP or
RUNAWAY is the model's choice, log entry 13. -/
def Obligations.TriggerEdgeResult : Prop :=
  ∀ (rising : Bool) (s : State),
    (rising = s.settings.triggerFalling → s.finishes = false → exec (.triggerEdge rising) s = .next s)
    ∧ (rising = !s.settings.triggerFalling → ∃ t : State, exec (.triggerEdge rising) s = .next t.settle
      ∧ t = { s with lanes := t.lanes, events := t.events }
      ∧ (∀ c, 1 ≤ c → c ≤ 19 → (t.isPending c = true ↔ s.isPending c = true ∨ ∃ n : Fin 4,
          ((s.lane n).state = .running ∨ (s.lane n).state = .holding) ∧
          ((c = 7 + n.val ∧ (s.lane n).startMode = .trigger)
            ∨ ((s.lane n).state = .running ∧ ((s.lane n).startMode = .once ∨ (s.lane n).startMode = .period)
              ∧ (s.lane n).work = .triggerWait
              ∧ ((c = 11 + n.val ∧ (s.lane n).stopAtStepEnd = true)
                ∨ (c = 1 + n.val ∧ (s.lane n).stopAtStepEnd = false
                  ∧ ((s.lane n).stepIndex = 63 ∨ 256 ≤ (s.lane n).stepCount)))))))
      ∧ ∀ n : Fin 4,
        ((s.lane n).atRest = true → t.lane n = s.lane n)
        ∧ ((s.lane n).state = .waiting → (s.lane n).startMode = .trigger → t.lane n = (s.lane n).atCycleStart)
        ∧ ((s.lane n).state = .running ∨ (s.lane n).state = .holding → (s.lane n).startMode = .trigger →
            t.lane n = { s.lane n with startOwed := true })
        ∧ ((s.lane n).active = true → (s.lane n).startMode = .once ∨ (s.lane n).startMode = .period →
            (s.lane n).work ≠ .triggerWait → t.lane n = { s.lane n with triggerLatch := true })
        ∧ ((s.lane n).state = .running → (s.lane n).startMode = .once ∨ (s.lane n).startMode = .period →
            (s.lane n).work = .triggerWait → t.lane n = (s.endStep n).lane n))

/-! ### What every step keeps -/

/-- The lock table holds at most 4 entries, no two for one record, each for a record of an active window with read locking. -/
def Obligations.StepKeepsLockLaws : Prop :=
  ∀ s t : State, LockLaws s → step s = .next t → LockLaws t

/-- A held entry belongs to a feed window bound to its slot's lane and is not forgotten: its record is locked, its drain is
claimed or its drain burst holds the port; with the laws of entries in hand that keep this so. The premise TrackerLaws is kept by
every step as well (StepKeepsTrackerLaws). -/
def Obligations.StepKeepsHoldLaws : Prop :=
  ∀ s t : State, TrackerLaws s ∧ HoldLaws s → step s = .next t → HoldLaws t

/-- The windows stay disjoint from each other, from the control block and from every loaded program area. -/
def Obligations.StepKeepsAreaLaws : Prop :=
  ∀ s t : State, AreaLaws s → step s = .next t → AreaLaws t

/-- The changed sets hold each index once, only indices below the record count, and nothing while the table is inactive; with
the laws of lanes and records in hand that keep this so. -/
def Obligations.StepKeepsTrackerLaws : Prop :=
  ∀ s t : State, TrackerLaws s → step s = .next t → TrackerLaws t

/-- Memory keeps its canonical form, and the counts and the installed settings stay in their ranges. -/
def Obligations.StepKeepsFormAndRanges : Prop :=
  ∀ s t : State, MemoryLaw s ∧ CountLaws s ∧ SettingsLaws s → step s = .next t →
    MemoryLaw t ∧ CountLaws t ∧ SettingsLaws t
end

