-- ==== Sys2Proof/Laws/Banks.lean ====
section
/-! SUPPORT. Reading a bank after writing it. -/

namespace Sys2Proof.Machine

variable {α : Type}

@[simp] theorem Four.get_set_same (v : Four α) (n : Fin 4) (x : α) : (v.set n x).get n = x := by
  match n with
  | 0 => rfl
  | 1 => rfl
  | 2 => rfl
  | 3 => rfl

theorem Four.get_set_other (v : Four α) (m n : Fin 4) (x : α) (h : m ≠ n) : (v.set n x).get m = v.get m := by
  match m, n with
  | 0, 0 => exact absurd rfl h
  | 0, 1 => rfl
  | 0, 2 => rfl
  | 0, 3 => rfl
  | 1, 0 => rfl
  | 1, 1 => exact absurd rfl h
  | 1, 2 => rfl
  | 1, 3 => rfl
  | 2, 0 => rfl
  | 2, 1 => rfl
  | 2, 2 => exact absurd rfl h
  | 2, 3 => rfl
  | 3, 0 => rfl
  | 3, 1 => rfl
  | 3, 2 => rfl
  | 3, 3 => exact absurd rfl h

theorem Four.get_set (v : Four α) (m n : Fin 4) (x : α) : (v.set n x).get m = if m = n then x else v.get m := by
  by_cases h : m = n
  · subst h; simp
  · simp [h, Four.get_set_other v m n x h]

@[simp] theorem Four.get_ofFn (f : Fin 4 → α) (n : Fin 4) : (Four.ofFn f).get n = f n := by
  match n with
  | 0 => rfl
  | 1 => rfl
  | 2 => rfl
  | 3 => rfl

@[simp] theorem Four.get_replicate (x : α) (n : Fin 4) : (Four.replicate x).get n = x := by
  match n with
  | 0 => rfl
  | 1 => rfl
  | 2 => rfl
  | 3 => rfl

@[simp] theorem Four.set_get (v : Four α) (n : Fin 4) : v.set n (v.get n) = v := by
  match n with
  | 0 => rfl
  | 1 => rfl
  | 2 => rfl
  | 3 => rfl

@[simp] theorem Four.set_set (v : Four α) (n : Fin 4) (x y : α) : (v.set n x).set n y = v.set n y := by
  match n with
  | 0 => rfl
  | 1 => rfl
  | 2 => rfl
  | 3 => rfl

/-- Two banks with the same thing at every place are the same bank. -/
theorem Four.ext_get (v u : Four α) (h : ∀ n, v.get n = u.get n) : v = u := by
  cases v; cases u
  have h0 := h 0; have h1 := h 1; have h2 := h 2; have h3 := h 3
  simp only [Four.get] at h0 h1 h2 h3
  subst h0; subst h1; subst h2; subst h3; rfl

theorem Sixteen.index_eq (v w : Fin 16) (hh : Sixteen.hi v = Sixteen.hi w) (hl : Sixteen.lo v = Sixteen.lo w) : v = w := by
  simp only [Sixteen.hi, Sixteen.lo, Fin.mk.injEq] at hh hl
  apply Fin.ext
  omega

@[simp] theorem Sixteen.get_set_same (v : Sixteen α) (w : Fin 16) (x : α) : Sixteen.get (Sixteen.set v w x) w = x := by
  simp [Sixteen.get, Sixteen.set]

theorem Sixteen.get_set_other (v : Sixteen α) (u w : Fin 16) (x : α) (h : u ≠ w) :
    Sixteen.get (Sixteen.set v w x) u = Sixteen.get v u := by
  simp only [Sixteen.get, Sixteen.set, Four.get_set]
  by_cases hh : Sixteen.hi u = Sixteen.hi w
  · have hl : Sixteen.lo u ≠ Sixteen.lo w := fun e => h (Sixteen.index_eq u w hh e)
    simp [hh, Four.get_set_other _ _ _ _ hl]
  · simp [hh]

theorem Sixteen.get_set (v : Sixteen α) (u w : Fin 16) (x : α) :
    Sixteen.get (Sixteen.set v w x) u = if u = w then x else Sixteen.get v u := by
  by_cases h : u = w
  · subst h; simp
  · simp [h, Sixteen.get_set_other v u w x h]

@[simp] theorem Sixteen.get_ofFn (f : Fin 16 → α) (w : Fin 16) : Sixteen.get (Sixteen.ofFn f) w = f w := by
  simp only [Sixteen.get, Sixteen.ofFn, Four.get_ofFn, Sixteen.hi, Sixteen.lo]
  congr 1
  apply Fin.ext
  simp only
  omega

@[simp] theorem Sixteen.get_replicate (x : α) (w : Fin 16) : Sixteen.get (Sixteen.replicate x) w = x := by
  simp [Sixteen.get, Sixteen.replicate]

/-- Every lane is in the list of lanes. -/
theorem mem_laneList (n : Fin 4) : n ∈ laneList := by
  revert n; decide

/-- Every window index is in the list of window indices. -/
theorem mem_windowList (w : Fin 16) : w ∈ windowList := by
  revert w; decide

end Sys2Proof.Machine
end

