-- ==== Sys2Proof/Laws/State.lean ====
section
/-! SUPPORT. What each shared update of State does to each field, once; and the lanes of a state after one of them is set. -/

namespace Sys2Proof.Machine

@[simp] theorem State.setLane_pending (s : State) (n : Fin 4) (l : Lane) : (s.setLane n l).pending = s.pending := rfl
@[simp] theorem State.setLane_mem (s : State) (n : Fin 4) (l : Lane) : (s.setLane n l).mem = s.mem := rfl
@[simp] theorem State.setLane_phase (s : State) (n : Fin 4) (l : Lane) : (s.setLane n l).phase = s.phase := rfl
@[simp] theorem State.setLane_strap (s : State) (n : Fin 4) (l : Lane) : (s.setLane n l).strap = s.strap := rfl
@[simp] theorem State.setLane_upstream (s : State) (n : Fin 4) (l : Lane) : (s.setLane n l).upstream = s.upstream := rfl
@[simp] theorem State.setLane_readData (s : State) (n : Fin 4) (l : Lane) : (s.setLane n l).readData = s.readData := rfl
@[simp] theorem State.setLane_guardAddr (s : State) (n : Fin 4) (l : Lane) : (s.setLane n l).guardAddr = s.guardAddr := rfl
@[simp] theorem State.setLane_guardLowMarked (s : State) (n : Fin 4) (l : Lane) : (s.setLane n l).guardLowMarked = s.guardLowMarked := rfl
@[simp] theorem State.setLane_guardHighMarked (s : State) (n : Fin 4) (l : Lane) : (s.setLane n l).guardHighMarked = s.guardHighMarked := rfl
@[simp] theorem State.setLane_port (s : State) (n : Fin 4) (l : Lane) : (s.setLane n l).port = s.port := rfl
@[simp] theorem State.setLane_arbiter (s : State) (n : Fin 4) (l : Lane) : (s.setLane n l).arbiter = s.arbiter := rfl
@[simp] theorem State.setLane_table (s : State) (n : Fin 4) (l : Lane) : (s.setLane n l).table = s.table := rfl
@[simp] theorem State.setLane_changed (s : State) (n : Fin 4) (l : Lane) : (s.setLane n l).changed = s.changed := rfl
@[simp] theorem State.setLane_locks (s : State) (n : Fin 4) (l : Lane) : (s.setLane n l).locks = s.locks := rfl
@[simp] theorem State.setLane_slots (s : State) (n : Fin 4) (l : Lane) : (s.setLane n l).slots = s.slots := rfl
@[simp] theorem State.setLane_drains (s : State) (n : Fin 4) (l : Lane) : (s.setLane n l).drains = s.drains := rfl
@[simp] theorem State.setLane_lanes (s : State) (n : Fin 4) (l : Lane) : (s.setLane n l).lanes = s.lanes.set n l := rfl
@[simp] theorem State.setLane_ldi (s : State) (n : Fin 4) (l : Lane) : (s.setLane n l).ldi = s.ldi := rfl
@[simp] theorem State.setLane_engine (s : State) (n : Fin 4) (l : Lane) : (s.setLane n l).engine = s.engine := rfl
@[simp] theorem State.setLane_result (s : State) (n : Fin 4) (l : Lane) : (s.setLane n l).result = s.result := rfl
@[simp] theorem State.setLane_resultMarked (s : State) (n : Fin 4) (l : Lane) : (s.setLane n l).resultMarked = s.resultMarked := rfl
@[simp] theorem State.setLane_detailMarked (s : State) (n : Fin 4) (l : Lane) : (s.setLane n l).detailMarked = s.detailMarked := rfl
@[simp] theorem State.setLane_mode (s : State) (n : Fin 4) (l : Lane) : (s.setLane n l).mode = s.mode := rfl
@[simp] theorem State.setLane_armed (s : State) (n : Fin 4) (l : Lane) : (s.setLane n l).armed = s.armed := rfl
@[simp] theorem State.setLane_frozen (s : State) (n : Fin 4) (l : Lane) : (s.setLane n l).frozen = s.frozen := rfl
@[simp] theorem State.setLane_settings (s : State) (n : Fin 4) (l : Lane) : (s.setLane n l).settings = s.settings := rfl
@[simp] theorem State.setLane_resetCause (s : State) (n : Fin 4) (l : Lane) : (s.setLane n l).resetCause = s.resetCause := rfl
@[simp] theorem State.setLane_events (s : State) (n : Fin 4) (l : Lane) : (s.setLane n l).events = s.events := rfl
@[simp] theorem State.setLane_lastCause (s : State) (n : Fin 4) (l : Lane) : (s.setLane n l).lastCause = s.lastCause := rfl
@[simp] theorem State.setLane_status (s : State) (n : Fin 4) (l : Lane) : (s.setLane n l).status = s.status := rfl
@[simp] theorem State.setLane_sweep (s : State) (n : Fin 4) (l : Lane) : (s.setLane n l).sweep = s.sweep := rfl

@[simp] theorem State.raise_pending (s : State) (e : Event) : (s.raise e).pending = s.pending := rfl
@[simp] theorem State.raise_mem (s : State) (e : Event) : (s.raise e).mem = s.mem := rfl
@[simp] theorem State.raise_phase (s : State) (e : Event) : (s.raise e).phase = s.phase := rfl
@[simp] theorem State.raise_strap (s : State) (e : Event) : (s.raise e).strap = s.strap := rfl
@[simp] theorem State.raise_upstream (s : State) (e : Event) : (s.raise e).upstream = s.upstream := rfl
@[simp] theorem State.raise_readData (s : State) (e : Event) : (s.raise e).readData = s.readData := rfl
@[simp] theorem State.raise_guardAddr (s : State) (e : Event) : (s.raise e).guardAddr = s.guardAddr := rfl
@[simp] theorem State.raise_guardLowMarked (s : State) (e : Event) : (s.raise e).guardLowMarked = s.guardLowMarked := rfl
@[simp] theorem State.raise_guardHighMarked (s : State) (e : Event) : (s.raise e).guardHighMarked = s.guardHighMarked := rfl
@[simp] theorem State.raise_port (s : State) (e : Event) : (s.raise e).port = s.port := rfl
@[simp] theorem State.raise_arbiter (s : State) (e : Event) : (s.raise e).arbiter = s.arbiter := rfl
@[simp] theorem State.raise_table (s : State) (e : Event) : (s.raise e).table = s.table := rfl
@[simp] theorem State.raise_changed (s : State) (e : Event) : (s.raise e).changed = s.changed := rfl
@[simp] theorem State.raise_locks (s : State) (e : Event) : (s.raise e).locks = s.locks := rfl
@[simp] theorem State.raise_slots (s : State) (e : Event) : (s.raise e).slots = s.slots := rfl
@[simp] theorem State.raise_drains (s : State) (e : Event) : (s.raise e).drains = s.drains := rfl
@[simp] theorem State.raise_lanes (s : State) (e : Event) : (s.raise e).lanes = s.lanes := rfl
@[simp] theorem State.raise_ldi (s : State) (e : Event) : (s.raise e).ldi = s.ldi := rfl
@[simp] theorem State.raise_engine (s : State) (e : Event) : (s.raise e).engine = s.engine := rfl
@[simp] theorem State.raise_result (s : State) (e : Event) : (s.raise e).result = s.result := rfl
@[simp] theorem State.raise_resultMarked (s : State) (e : Event) : (s.raise e).resultMarked = s.resultMarked := rfl
@[simp] theorem State.raise_detailMarked (s : State) (e : Event) : (s.raise e).detailMarked = s.detailMarked := rfl
@[simp] theorem State.raise_mode (s : State) (e : Event) : (s.raise e).mode = s.mode := rfl
@[simp] theorem State.raise_armed (s : State) (e : Event) : (s.raise e).armed = s.armed := rfl
@[simp] theorem State.raise_frozen (s : State) (e : Event) : (s.raise e).frozen = s.frozen := rfl
@[simp] theorem State.raise_settings (s : State) (e : Event) : (s.raise e).settings = s.settings := rfl
@[simp] theorem State.raise_resetCause (s : State) (e : Event) : (s.raise e).resetCause = s.resetCause := rfl
@[simp] theorem State.raise_events (s : State) (e : Event) : (s.raise e).events = s.events ||| BitVec.twoPow 19 (e.code - 1) := rfl
@[simp] theorem State.raise_lastCause (s : State) (e : Event) : (s.raise e).lastCause = s.lastCause := rfl
@[simp] theorem State.raise_status (s : State) (e : Event) : (s.raise e).status = s.status := rfl
@[simp] theorem State.raise_sweep (s : State) (e : Event) : (s.raise e).sweep = s.sweep := rfl

@[simp] theorem State.clearEvents_pending (s : State) (mask : BitVec 19) : (s.clearEvents mask).pending = s.pending := rfl
@[simp] theorem State.clearEvents_mem (s : State) (mask : BitVec 19) : (s.clearEvents mask).mem = s.mem := rfl
@[simp] theorem State.clearEvents_phase (s : State) (mask : BitVec 19) : (s.clearEvents mask).phase = s.phase := rfl
@[simp] theorem State.clearEvents_strap (s : State) (mask : BitVec 19) : (s.clearEvents mask).strap = s.strap := rfl
@[simp] theorem State.clearEvents_upstream (s : State) (mask : BitVec 19) : (s.clearEvents mask).upstream = s.upstream := rfl
@[simp] theorem State.clearEvents_readData (s : State) (mask : BitVec 19) : (s.clearEvents mask).readData = s.readData := rfl
@[simp] theorem State.clearEvents_guardAddr (s : State) (mask : BitVec 19) : (s.clearEvents mask).guardAddr = s.guardAddr := rfl
@[simp] theorem State.clearEvents_guardLowMarked (s : State) (mask : BitVec 19) : (s.clearEvents mask).guardLowMarked = s.guardLowMarked := rfl
@[simp] theorem State.clearEvents_guardHighMarked (s : State) (mask : BitVec 19) : (s.clearEvents mask).guardHighMarked = s.guardHighMarked := rfl
@[simp] theorem State.clearEvents_port (s : State) (mask : BitVec 19) : (s.clearEvents mask).port = s.port := rfl
@[simp] theorem State.clearEvents_arbiter (s : State) (mask : BitVec 19) : (s.clearEvents mask).arbiter = s.arbiter := rfl
@[simp] theorem State.clearEvents_table (s : State) (mask : BitVec 19) : (s.clearEvents mask).table = s.table := rfl
@[simp] theorem State.clearEvents_changed (s : State) (mask : BitVec 19) : (s.clearEvents mask).changed = s.changed := rfl
@[simp] theorem State.clearEvents_locks (s : State) (mask : BitVec 19) : (s.clearEvents mask).locks = s.locks := rfl
@[simp] theorem State.clearEvents_slots (s : State) (mask : BitVec 19) : (s.clearEvents mask).slots = s.slots := rfl
@[simp] theorem State.clearEvents_drains (s : State) (mask : BitVec 19) : (s.clearEvents mask).drains = s.drains := rfl
@[simp] theorem State.clearEvents_lanes (s : State) (mask : BitVec 19) : (s.clearEvents mask).lanes = s.lanes := rfl
@[simp] theorem State.clearEvents_ldi (s : State) (mask : BitVec 19) : (s.clearEvents mask).ldi = s.ldi := rfl
@[simp] theorem State.clearEvents_engine (s : State) (mask : BitVec 19) : (s.clearEvents mask).engine = s.engine := rfl
@[simp] theorem State.clearEvents_result (s : State) (mask : BitVec 19) : (s.clearEvents mask).result = s.result := rfl
@[simp] theorem State.clearEvents_resultMarked (s : State) (mask : BitVec 19) : (s.clearEvents mask).resultMarked = s.resultMarked := rfl
@[simp] theorem State.clearEvents_detailMarked (s : State) (mask : BitVec 19) : (s.clearEvents mask).detailMarked = s.detailMarked := rfl
@[simp] theorem State.clearEvents_mode (s : State) (mask : BitVec 19) : (s.clearEvents mask).mode = s.mode := rfl
@[simp] theorem State.clearEvents_armed (s : State) (mask : BitVec 19) : (s.clearEvents mask).armed = s.armed := rfl
@[simp] theorem State.clearEvents_frozen (s : State) (mask : BitVec 19) : (s.clearEvents mask).frozen = s.frozen := rfl
@[simp] theorem State.clearEvents_settings (s : State) (mask : BitVec 19) : (s.clearEvents mask).settings = s.settings := rfl
@[simp] theorem State.clearEvents_resetCause (s : State) (mask : BitVec 19) : (s.clearEvents mask).resetCause = s.resetCause := rfl
@[simp] theorem State.clearEvents_events (s : State) (mask : BitVec 19) : (s.clearEvents mask).events = s.events &&& ~~~mask := rfl
@[simp] theorem State.clearEvents_lastCause (s : State) (mask : BitVec 19) : (s.clearEvents mask).lastCause = s.lastCause := rfl
@[simp] theorem State.clearEvents_status (s : State) (mask : BitVec 19) : (s.clearEvents mask).status = s.status := rfl
@[simp] theorem State.clearEvents_sweep (s : State) (mask : BitVec 19) : (s.clearEvents mask).sweep = s.sweep := rfl

@[simp] theorem State.holdPort_pending (s : State) (u : BurstUser) (k : Nat) (ws : List (Addr × Word)) : (s.holdPort u k ws).pending = s.pending := rfl
@[simp] theorem State.holdPort_mem (s : State) (u : BurstUser) (k : Nat) (ws : List (Addr × Word)) : (s.holdPort u k ws).mem = s.mem := rfl
@[simp] theorem State.holdPort_phase (s : State) (u : BurstUser) (k : Nat) (ws : List (Addr × Word)) : (s.holdPort u k ws).phase = s.phase := rfl
@[simp] theorem State.holdPort_strap (s : State) (u : BurstUser) (k : Nat) (ws : List (Addr × Word)) : (s.holdPort u k ws).strap = s.strap := rfl
@[simp] theorem State.holdPort_upstream (s : State) (u : BurstUser) (k : Nat) (ws : List (Addr × Word)) : (s.holdPort u k ws).upstream = s.upstream := rfl
@[simp] theorem State.holdPort_readData (s : State) (u : BurstUser) (k : Nat) (ws : List (Addr × Word)) : (s.holdPort u k ws).readData = s.readData := rfl
@[simp] theorem State.holdPort_guardAddr (s : State) (u : BurstUser) (k : Nat) (ws : List (Addr × Word)) : (s.holdPort u k ws).guardAddr = s.guardAddr := rfl
@[simp] theorem State.holdPort_guardLowMarked (s : State) (u : BurstUser) (k : Nat) (ws : List (Addr × Word)) : (s.holdPort u k ws).guardLowMarked = s.guardLowMarked := rfl
@[simp] theorem State.holdPort_guardHighMarked (s : State) (u : BurstUser) (k : Nat) (ws : List (Addr × Word)) : (s.holdPort u k ws).guardHighMarked = s.guardHighMarked := rfl
@[simp] theorem State.holdPort_port (s : State) (u : BurstUser) (k : Nat) (ws : List (Addr × Word)) : (s.holdPort u k ws).port = some { user := u, length := k, writes := ws, done := 0 } := rfl
@[simp] theorem State.holdPort_arbiter (s : State) (u : BurstUser) (k : Nat) (ws : List (Addr × Word)) : (s.holdPort u k ws).arbiter = s.arbiter := rfl
@[simp] theorem State.holdPort_table (s : State) (u : BurstUser) (k : Nat) (ws : List (Addr × Word)) : (s.holdPort u k ws).table = s.table := rfl
@[simp] theorem State.holdPort_changed (s : State) (u : BurstUser) (k : Nat) (ws : List (Addr × Word)) : (s.holdPort u k ws).changed = s.changed := rfl
@[simp] theorem State.holdPort_locks (s : State) (u : BurstUser) (k : Nat) (ws : List (Addr × Word)) : (s.holdPort u k ws).locks = s.locks := rfl
@[simp] theorem State.holdPort_slots (s : State) (u : BurstUser) (k : Nat) (ws : List (Addr × Word)) : (s.holdPort u k ws).slots = s.slots := rfl
@[simp] theorem State.holdPort_drains (s : State) (u : BurstUser) (k : Nat) (ws : List (Addr × Word)) : (s.holdPort u k ws).drains = s.drains := rfl
@[simp] theorem State.holdPort_lanes (s : State) (u : BurstUser) (k : Nat) (ws : List (Addr × Word)) : (s.holdPort u k ws).lanes = s.lanes := rfl
@[simp] theorem State.holdPort_ldi (s : State) (u : BurstUser) (k : Nat) (ws : List (Addr × Word)) : (s.holdPort u k ws).ldi = s.ldi := rfl
@[simp] theorem State.holdPort_engine (s : State) (u : BurstUser) (k : Nat) (ws : List (Addr × Word)) : (s.holdPort u k ws).engine = s.engine := rfl
@[simp] theorem State.holdPort_result (s : State) (u : BurstUser) (k : Nat) (ws : List (Addr × Word)) : (s.holdPort u k ws).result = s.result := rfl
@[simp] theorem State.holdPort_resultMarked (s : State) (u : BurstUser) (k : Nat) (ws : List (Addr × Word)) : (s.holdPort u k ws).resultMarked = s.resultMarked := rfl
@[simp] theorem State.holdPort_detailMarked (s : State) (u : BurstUser) (k : Nat) (ws : List (Addr × Word)) : (s.holdPort u k ws).detailMarked = s.detailMarked := rfl
@[simp] theorem State.holdPort_mode (s : State) (u : BurstUser) (k : Nat) (ws : List (Addr × Word)) : (s.holdPort u k ws).mode = s.mode := rfl
@[simp] theorem State.holdPort_armed (s : State) (u : BurstUser) (k : Nat) (ws : List (Addr × Word)) : (s.holdPort u k ws).armed = s.armed := rfl
@[simp] theorem State.holdPort_frozen (s : State) (u : BurstUser) (k : Nat) (ws : List (Addr × Word)) : (s.holdPort u k ws).frozen = s.frozen := rfl
@[simp] theorem State.holdPort_settings (s : State) (u : BurstUser) (k : Nat) (ws : List (Addr × Word)) : (s.holdPort u k ws).settings = s.settings := rfl
@[simp] theorem State.holdPort_resetCause (s : State) (u : BurstUser) (k : Nat) (ws : List (Addr × Word)) : (s.holdPort u k ws).resetCause = s.resetCause := rfl
@[simp] theorem State.holdPort_events (s : State) (u : BurstUser) (k : Nat) (ws : List (Addr × Word)) : (s.holdPort u k ws).events = s.events := rfl
@[simp] theorem State.holdPort_lastCause (s : State) (u : BurstUser) (k : Nat) (ws : List (Addr × Word)) : (s.holdPort u k ws).lastCause = s.lastCause := rfl
@[simp] theorem State.holdPort_status (s : State) (u : BurstUser) (k : Nat) (ws : List (Addr × Word)) : (s.holdPort u k ws).status = s.status := rfl
@[simp] theorem State.holdPort_sweep (s : State) (u : BurstUser) (k : Nat) (ws : List (Addr × Word)) : (s.holdPort u k ws).sweep = s.sweep := rfl

@[simp] theorem State.countAccess_pending (s : State) : (s.countAccess).pending = s.pending := rfl
@[simp] theorem State.countAccess_mem (s : State) : (s.countAccess).mem = s.mem := rfl
@[simp] theorem State.countAccess_phase (s : State) : (s.countAccess).phase = s.phase := rfl
@[simp] theorem State.countAccess_strap (s : State) : (s.countAccess).strap = s.strap := rfl
@[simp] theorem State.countAccess_upstream (s : State) : (s.countAccess).upstream = s.upstream := rfl
@[simp] theorem State.countAccess_readData (s : State) : (s.countAccess).readData = s.readData := rfl
@[simp] theorem State.countAccess_guardAddr (s : State) : (s.countAccess).guardAddr = s.guardAddr := rfl
@[simp] theorem State.countAccess_guardLowMarked (s : State) : (s.countAccess).guardLowMarked = s.guardLowMarked := rfl
@[simp] theorem State.countAccess_guardHighMarked (s : State) : (s.countAccess).guardHighMarked = s.guardHighMarked := rfl
@[simp] theorem State.countAccess_port (s : State) : (s.countAccess).port = s.port := rfl
@[simp] theorem State.countAccess_arbiter (s : State) : (s.countAccess).arbiter = { s.arbiter with fairness := if s.claimWaiting then s.arbiter.fairness + 1 else 0 } := rfl
@[simp] theorem State.countAccess_table (s : State) : (s.countAccess).table = s.table := rfl
@[simp] theorem State.countAccess_changed (s : State) : (s.countAccess).changed = s.changed := rfl
@[simp] theorem State.countAccess_locks (s : State) : (s.countAccess).locks = s.locks := rfl
@[simp] theorem State.countAccess_slots (s : State) : (s.countAccess).slots = s.slots := rfl
@[simp] theorem State.countAccess_drains (s : State) : (s.countAccess).drains = s.drains := rfl
@[simp] theorem State.countAccess_lanes (s : State) : (s.countAccess).lanes = s.lanes := rfl
@[simp] theorem State.countAccess_ldi (s : State) : (s.countAccess).ldi = s.ldi := rfl
@[simp] theorem State.countAccess_engine (s : State) : (s.countAccess).engine = s.engine := rfl
@[simp] theorem State.countAccess_result (s : State) : (s.countAccess).result = s.result := rfl
@[simp] theorem State.countAccess_resultMarked (s : State) : (s.countAccess).resultMarked = s.resultMarked := rfl
@[simp] theorem State.countAccess_detailMarked (s : State) : (s.countAccess).detailMarked = s.detailMarked := rfl
@[simp] theorem State.countAccess_mode (s : State) : (s.countAccess).mode = s.mode := rfl
@[simp] theorem State.countAccess_armed (s : State) : (s.countAccess).armed = s.armed := rfl
@[simp] theorem State.countAccess_frozen (s : State) : (s.countAccess).frozen = s.frozen := rfl
@[simp] theorem State.countAccess_settings (s : State) : (s.countAccess).settings = s.settings := rfl
@[simp] theorem State.countAccess_resetCause (s : State) : (s.countAccess).resetCause = s.resetCause := rfl
@[simp] theorem State.countAccess_events (s : State) : (s.countAccess).events = s.events := rfl
@[simp] theorem State.countAccess_lastCause (s : State) : (s.countAccess).lastCause = s.lastCause := rfl
@[simp] theorem State.countAccess_status (s : State) : (s.countAccess).status = s.status := rfl
@[simp] theorem State.countAccess_sweep (s : State) : (s.countAccess).sweep = s.sweep := rfl

@[simp] theorem State.countGrant_pending (s : State) (src : Source) : (s.countGrant src).pending = s.pending := rfl
@[simp] theorem State.countGrant_mem (s : State) (src : Source) : (s.countGrant src).mem = s.mem := rfl
@[simp] theorem State.countGrant_phase (s : State) (src : Source) : (s.countGrant src).phase = s.phase := rfl
@[simp] theorem State.countGrant_strap (s : State) (src : Source) : (s.countGrant src).strap = s.strap := rfl
@[simp] theorem State.countGrant_upstream (s : State) (src : Source) : (s.countGrant src).upstream = s.upstream := rfl
@[simp] theorem State.countGrant_readData (s : State) (src : Source) : (s.countGrant src).readData = s.readData := rfl
@[simp] theorem State.countGrant_guardAddr (s : State) (src : Source) : (s.countGrant src).guardAddr = s.guardAddr := rfl
@[simp] theorem State.countGrant_guardLowMarked (s : State) (src : Source) : (s.countGrant src).guardLowMarked = s.guardLowMarked := rfl
@[simp] theorem State.countGrant_guardHighMarked (s : State) (src : Source) : (s.countGrant src).guardHighMarked = s.guardHighMarked := rfl
@[simp] theorem State.countGrant_port (s : State) (src : Source) : (s.countGrant src).port = s.port := rfl
@[simp] theorem State.countGrant_arbiter (s : State) (src : Source) : (s.countGrant src).arbiter = s.arbiter.served src := rfl
@[simp] theorem State.countGrant_table (s : State) (src : Source) : (s.countGrant src).table = s.table := rfl
@[simp] theorem State.countGrant_changed (s : State) (src : Source) : (s.countGrant src).changed = s.changed := rfl
@[simp] theorem State.countGrant_locks (s : State) (src : Source) : (s.countGrant src).locks = s.locks := rfl
@[simp] theorem State.countGrant_slots (s : State) (src : Source) : (s.countGrant src).slots = s.slots := rfl
@[simp] theorem State.countGrant_drains (s : State) (src : Source) : (s.countGrant src).drains = s.drains := rfl
@[simp] theorem State.countGrant_lanes (s : State) (src : Source) : (s.countGrant src).lanes = s.lanes := rfl
@[simp] theorem State.countGrant_ldi (s : State) (src : Source) : (s.countGrant src).ldi = s.ldi := rfl
@[simp] theorem State.countGrant_engine (s : State) (src : Source) : (s.countGrant src).engine = s.engine := rfl
@[simp] theorem State.countGrant_result (s : State) (src : Source) : (s.countGrant src).result = s.result := rfl
@[simp] theorem State.countGrant_resultMarked (s : State) (src : Source) : (s.countGrant src).resultMarked = s.resultMarked := rfl
@[simp] theorem State.countGrant_detailMarked (s : State) (src : Source) : (s.countGrant src).detailMarked = s.detailMarked := rfl
@[simp] theorem State.countGrant_mode (s : State) (src : Source) : (s.countGrant src).mode = s.mode := rfl
@[simp] theorem State.countGrant_armed (s : State) (src : Source) : (s.countGrant src).armed = s.armed := rfl
@[simp] theorem State.countGrant_frozen (s : State) (src : Source) : (s.countGrant src).frozen = s.frozen := rfl
@[simp] theorem State.countGrant_settings (s : State) (src : Source) : (s.countGrant src).settings = s.settings := rfl
@[simp] theorem State.countGrant_resetCause (s : State) (src : Source) : (s.countGrant src).resetCause = s.resetCause := rfl
@[simp] theorem State.countGrant_events (s : State) (src : Source) : (s.countGrant src).events = s.events := rfl
@[simp] theorem State.countGrant_lastCause (s : State) (src : Source) : (s.countGrant src).lastCause = s.lastCause := rfl
@[simp] theorem State.countGrant_status (s : State) (src : Source) : (s.countGrant src).status = s.status := rfl
@[simp] theorem State.countGrant_sweep (s : State) (src : Source) : (s.countGrant src).sweep = s.sweep := rfl

@[simp] theorem State.setResult_pending (s : State) (code : Byte) (o : CommandOutcome) (d : Word) : (s.setResult code o d).pending = s.pending := rfl
@[simp] theorem State.setResult_mem (s : State) (code : Byte) (o : CommandOutcome) (d : Word) : (s.setResult code o d).mem = s.mem := rfl
@[simp] theorem State.setResult_phase (s : State) (code : Byte) (o : CommandOutcome) (d : Word) : (s.setResult code o d).phase = s.phase := rfl
@[simp] theorem State.setResult_strap (s : State) (code : Byte) (o : CommandOutcome) (d : Word) : (s.setResult code o d).strap = s.strap := rfl
@[simp] theorem State.setResult_upstream (s : State) (code : Byte) (o : CommandOutcome) (d : Word) : (s.setResult code o d).upstream = s.upstream := rfl
@[simp] theorem State.setResult_readData (s : State) (code : Byte) (o : CommandOutcome) (d : Word) : (s.setResult code o d).readData = s.readData := rfl
@[simp] theorem State.setResult_guardAddr (s : State) (code : Byte) (o : CommandOutcome) (d : Word) : (s.setResult code o d).guardAddr = s.guardAddr := rfl
@[simp] theorem State.setResult_guardLowMarked (s : State) (code : Byte) (o : CommandOutcome) (d : Word) : (s.setResult code o d).guardLowMarked = s.guardLowMarked := rfl
@[simp] theorem State.setResult_guardHighMarked (s : State) (code : Byte) (o : CommandOutcome) (d : Word) : (s.setResult code o d).guardHighMarked = s.guardHighMarked := rfl
@[simp] theorem State.setResult_port (s : State) (code : Byte) (o : CommandOutcome) (d : Word) : (s.setResult code o d).port = s.port := rfl
@[simp] theorem State.setResult_arbiter (s : State) (code : Byte) (o : CommandOutcome) (d : Word) : (s.setResult code o d).arbiter = s.arbiter := rfl
@[simp] theorem State.setResult_table (s : State) (code : Byte) (o : CommandOutcome) (d : Word) : (s.setResult code o d).table = s.table := rfl
@[simp] theorem State.setResult_changed (s : State) (code : Byte) (o : CommandOutcome) (d : Word) : (s.setResult code o d).changed = s.changed := rfl
@[simp] theorem State.setResult_locks (s : State) (code : Byte) (o : CommandOutcome) (d : Word) : (s.setResult code o d).locks = s.locks := rfl
@[simp] theorem State.setResult_slots (s : State) (code : Byte) (o : CommandOutcome) (d : Word) : (s.setResult code o d).slots = s.slots := rfl
@[simp] theorem State.setResult_drains (s : State) (code : Byte) (o : CommandOutcome) (d : Word) : (s.setResult code o d).drains = s.drains := rfl
@[simp] theorem State.setResult_lanes (s : State) (code : Byte) (o : CommandOutcome) (d : Word) : (s.setResult code o d).lanes = s.lanes := rfl
@[simp] theorem State.setResult_ldi (s : State) (code : Byte) (o : CommandOutcome) (d : Word) : (s.setResult code o d).ldi = s.ldi := rfl
@[simp] theorem State.setResult_engine (s : State) (code : Byte) (o : CommandOutcome) (d : Word) : (s.setResult code o d).engine = s.engine := rfl
@[simp] theorem State.setResult_result (s : State) (code : Byte) (o : CommandOutcome) (d : Word) : (s.setResult code o d).result = { code := code, outcome := o, detail := d } := rfl
@[simp] theorem State.setResult_resultMarked (s : State) (code : Byte) (o : CommandOutcome) (d : Word) : (s.setResult code o d).resultMarked =
    if s.result = { code := code, outcome := o, detail := d } then s.resultMarked else true := rfl
@[simp] theorem State.setResult_detailMarked (s : State) (code : Byte) (o : CommandOutcome) (d : Word) : (s.setResult code o d).detailMarked =
    if s.result = { code := code, outcome := o, detail := d } then s.detailMarked else true := rfl
@[simp] theorem State.setResult_mode (s : State) (code : Byte) (o : CommandOutcome) (d : Word) : (s.setResult code o d).mode = s.mode := rfl
@[simp] theorem State.setResult_armed (s : State) (code : Byte) (o : CommandOutcome) (d : Word) : (s.setResult code o d).armed = s.armed := rfl
@[simp] theorem State.setResult_frozen (s : State) (code : Byte) (o : CommandOutcome) (d : Word) : (s.setResult code o d).frozen = s.frozen := rfl
@[simp] theorem State.setResult_settings (s : State) (code : Byte) (o : CommandOutcome) (d : Word) : (s.setResult code o d).settings = s.settings := rfl
@[simp] theorem State.setResult_resetCause (s : State) (code : Byte) (o : CommandOutcome) (d : Word) : (s.setResult code o d).resetCause = s.resetCause := rfl
@[simp] theorem State.setResult_events (s : State) (code : Byte) (o : CommandOutcome) (d : Word) : (s.setResult code o d).events = s.events := rfl
@[simp] theorem State.setResult_lastCause (s : State) (code : Byte) (o : CommandOutcome) (d : Word) : (s.setResult code o d).lastCause = s.lastCause := rfl
@[simp] theorem State.setResult_status (s : State) (code : Byte) (o : CommandOutcome) (d : Word) : (s.setResult code o d).status = s.status := rfl
@[simp] theorem State.setResult_sweep (s : State) (code : Byte) (o : CommandOutcome) (d : Word) : (s.setResult code o d).sweep = s.sweep := rfl

@[simp] theorem State.setLongResult_pending (s : State) (code : Byte) (o : CommandOutcome) (d : Word) : (s.setLongResult code o d).pending = s.pending := rfl
@[simp] theorem State.setLongResult_mem (s : State) (code : Byte) (o : CommandOutcome) (d : Word) : (s.setLongResult code o d).mem = s.mem := rfl
@[simp] theorem State.setLongResult_phase (s : State) (code : Byte) (o : CommandOutcome) (d : Word) : (s.setLongResult code o d).phase = s.phase := rfl
@[simp] theorem State.setLongResult_strap (s : State) (code : Byte) (o : CommandOutcome) (d : Word) : (s.setLongResult code o d).strap = s.strap := rfl
@[simp] theorem State.setLongResult_upstream (s : State) (code : Byte) (o : CommandOutcome) (d : Word) : (s.setLongResult code o d).upstream = s.upstream := rfl
@[simp] theorem State.setLongResult_readData (s : State) (code : Byte) (o : CommandOutcome) (d : Word) : (s.setLongResult code o d).readData = s.readData := rfl
@[simp] theorem State.setLongResult_guardAddr (s : State) (code : Byte) (o : CommandOutcome) (d : Word) : (s.setLongResult code o d).guardAddr = s.guardAddr := rfl
@[simp] theorem State.setLongResult_guardLowMarked (s : State) (code : Byte) (o : CommandOutcome) (d : Word) : (s.setLongResult code o d).guardLowMarked = s.guardLowMarked := rfl
@[simp] theorem State.setLongResult_guardHighMarked (s : State) (code : Byte) (o : CommandOutcome) (d : Word) : (s.setLongResult code o d).guardHighMarked = s.guardHighMarked := rfl
@[simp] theorem State.setLongResult_port (s : State) (code : Byte) (o : CommandOutcome) (d : Word) : (s.setLongResult code o d).port = s.port := rfl
@[simp] theorem State.setLongResult_arbiter (s : State) (code : Byte) (o : CommandOutcome) (d : Word) : (s.setLongResult code o d).arbiter = s.arbiter := rfl
@[simp] theorem State.setLongResult_table (s : State) (code : Byte) (o : CommandOutcome) (d : Word) : (s.setLongResult code o d).table = s.table := rfl
@[simp] theorem State.setLongResult_changed (s : State) (code : Byte) (o : CommandOutcome) (d : Word) : (s.setLongResult code o d).changed = s.changed := rfl
@[simp] theorem State.setLongResult_locks (s : State) (code : Byte) (o : CommandOutcome) (d : Word) : (s.setLongResult code o d).locks = s.locks := rfl
@[simp] theorem State.setLongResult_slots (s : State) (code : Byte) (o : CommandOutcome) (d : Word) : (s.setLongResult code o d).slots = s.slots := rfl
@[simp] theorem State.setLongResult_drains (s : State) (code : Byte) (o : CommandOutcome) (d : Word) : (s.setLongResult code o d).drains = s.drains := rfl
@[simp] theorem State.setLongResult_lanes (s : State) (code : Byte) (o : CommandOutcome) (d : Word) : (s.setLongResult code o d).lanes = s.lanes := rfl
@[simp] theorem State.setLongResult_ldi (s : State) (code : Byte) (o : CommandOutcome) (d : Word) : (s.setLongResult code o d).ldi = s.ldi := rfl
@[simp] theorem State.setLongResult_engine (s : State) (code : Byte) (o : CommandOutcome) (d : Word) : (s.setLongResult code o d).engine = s.engine := rfl
@[simp] theorem State.setLongResult_result (s : State) (code : Byte) (o : CommandOutcome) (d : Word) : (s.setLongResult code o d).result = { code := code, outcome := o, detail := d } := rfl
@[simp] theorem State.setLongResult_resultMarked (s : State) (code : Byte) (o : CommandOutcome) (d : Word) : (s.setLongResult code o d).resultMarked = true := rfl
@[simp] theorem State.setLongResult_detailMarked (s : State) (code : Byte) (o : CommandOutcome) (d : Word) : (s.setLongResult code o d).detailMarked = true := rfl
@[simp] theorem State.setLongResult_mode (s : State) (code : Byte) (o : CommandOutcome) (d : Word) : (s.setLongResult code o d).mode = s.mode := rfl
@[simp] theorem State.setLongResult_armed (s : State) (code : Byte) (o : CommandOutcome) (d : Word) : (s.setLongResult code o d).armed = s.armed := rfl
@[simp] theorem State.setLongResult_frozen (s : State) (code : Byte) (o : CommandOutcome) (d : Word) : (s.setLongResult code o d).frozen = s.frozen := rfl
@[simp] theorem State.setLongResult_settings (s : State) (code : Byte) (o : CommandOutcome) (d : Word) : (s.setLongResult code o d).settings = s.settings := rfl
@[simp] theorem State.setLongResult_resetCause (s : State) (code : Byte) (o : CommandOutcome) (d : Word) : (s.setLongResult code o d).resetCause = s.resetCause := rfl
@[simp] theorem State.setLongResult_events (s : State) (code : Byte) (o : CommandOutcome) (d : Word) : (s.setLongResult code o d).events = s.events := rfl
@[simp] theorem State.setLongResult_lastCause (s : State) (code : Byte) (o : CommandOutcome) (d : Word) : (s.setLongResult code o d).lastCause = s.lastCause := rfl
@[simp] theorem State.setLongResult_status (s : State) (code : Byte) (o : CommandOutcome) (d : Word) : (s.setLongResult code o d).status = s.status := rfl
@[simp] theorem State.setLongResult_sweep (s : State) (code : Byte) (o : CommandOutcome) (d : Word) : (s.setLongResult code o d).sweep = s.sweep := rfl

@[simp] theorem State.fillSets_pending (s : State) (p : Fin 16 → Bool) : (s.fillSets p).pending = s.pending := rfl
@[simp] theorem State.fillSets_mem (s : State) (p : Fin 16 → Bool) : (s.fillSets p).mem = s.mem := rfl
@[simp] theorem State.fillSets_phase (s : State) (p : Fin 16 → Bool) : (s.fillSets p).phase = s.phase := rfl
@[simp] theorem State.fillSets_strap (s : State) (p : Fin 16 → Bool) : (s.fillSets p).strap = s.strap := rfl
@[simp] theorem State.fillSets_upstream (s : State) (p : Fin 16 → Bool) : (s.fillSets p).upstream = s.upstream := rfl
@[simp] theorem State.fillSets_readData (s : State) (p : Fin 16 → Bool) : (s.fillSets p).readData = s.readData := rfl
@[simp] theorem State.fillSets_guardAddr (s : State) (p : Fin 16 → Bool) : (s.fillSets p).guardAddr = s.guardAddr := rfl
@[simp] theorem State.fillSets_guardLowMarked (s : State) (p : Fin 16 → Bool) : (s.fillSets p).guardLowMarked = s.guardLowMarked := rfl
@[simp] theorem State.fillSets_guardHighMarked (s : State) (p : Fin 16 → Bool) : (s.fillSets p).guardHighMarked = s.guardHighMarked := rfl
@[simp] theorem State.fillSets_port (s : State) (p : Fin 16 → Bool) : (s.fillSets p).port = s.port := rfl
@[simp] theorem State.fillSets_arbiter (s : State) (p : Fin 16 → Bool) : (s.fillSets p).arbiter = s.arbiter := rfl
@[simp] theorem State.fillSets_table (s : State) (p : Fin 16 → Bool) : (s.fillSets p).table = s.table := rfl
@[simp] theorem State.fillSets_locks (s : State) (p : Fin 16 → Bool) : (s.fillSets p).locks = s.locks := rfl
@[simp] theorem State.fillSets_slots (s : State) (p : Fin 16 → Bool) : (s.fillSets p).slots = s.slots := rfl
@[simp] theorem State.fillSets_drains (s : State) (p : Fin 16 → Bool) : (s.fillSets p).drains = s.drains := rfl
@[simp] theorem State.fillSets_lanes (s : State) (p : Fin 16 → Bool) : (s.fillSets p).lanes = s.lanes := rfl
@[simp] theorem State.fillSets_ldi (s : State) (p : Fin 16 → Bool) : (s.fillSets p).ldi = s.ldi := rfl
@[simp] theorem State.fillSets_engine (s : State) (p : Fin 16 → Bool) : (s.fillSets p).engine = s.engine := rfl
@[simp] theorem State.fillSets_result (s : State) (p : Fin 16 → Bool) : (s.fillSets p).result = s.result := rfl
@[simp] theorem State.fillSets_resultMarked (s : State) (p : Fin 16 → Bool) : (s.fillSets p).resultMarked = s.resultMarked := rfl
@[simp] theorem State.fillSets_detailMarked (s : State) (p : Fin 16 → Bool) : (s.fillSets p).detailMarked = s.detailMarked := rfl
@[simp] theorem State.fillSets_mode (s : State) (p : Fin 16 → Bool) : (s.fillSets p).mode = s.mode := rfl
@[simp] theorem State.fillSets_armed (s : State) (p : Fin 16 → Bool) : (s.fillSets p).armed = s.armed := rfl
@[simp] theorem State.fillSets_frozen (s : State) (p : Fin 16 → Bool) : (s.fillSets p).frozen = s.frozen := rfl
@[simp] theorem State.fillSets_settings (s : State) (p : Fin 16 → Bool) : (s.fillSets p).settings = s.settings := rfl
@[simp] theorem State.fillSets_resetCause (s : State) (p : Fin 16 → Bool) : (s.fillSets p).resetCause = s.resetCause := rfl
@[simp] theorem State.fillSets_events (s : State) (p : Fin 16 → Bool) : (s.fillSets p).events = s.events := rfl
@[simp] theorem State.fillSets_lastCause (s : State) (p : Fin 16 → Bool) : (s.fillSets p).lastCause = s.lastCause := rfl
@[simp] theorem State.fillSets_status (s : State) (p : Fin 16 → Bool) : (s.fillSets p).status = s.status := rfl
@[simp] theorem State.fillSets_sweep (s : State) (p : Fin 16 → Bool) : (s.fillSets p).sweep = s.sweep := rfl

@[simp] theorem State.claimDrains_pending (s : State) (w : Fin 16) (k : Nat) : (s.claimDrains w k).pending = s.pending := rfl
@[simp] theorem State.claimDrains_mem (s : State) (w : Fin 16) (k : Nat) : (s.claimDrains w k).mem = s.mem := rfl
@[simp] theorem State.claimDrains_phase (s : State) (w : Fin 16) (k : Nat) : (s.claimDrains w k).phase = s.phase := rfl
@[simp] theorem State.claimDrains_strap (s : State) (w : Fin 16) (k : Nat) : (s.claimDrains w k).strap = s.strap := rfl
@[simp] theorem State.claimDrains_upstream (s : State) (w : Fin 16) (k : Nat) : (s.claimDrains w k).upstream = s.upstream := rfl
@[simp] theorem State.claimDrains_readData (s : State) (w : Fin 16) (k : Nat) : (s.claimDrains w k).readData = s.readData := rfl
@[simp] theorem State.claimDrains_guardAddr (s : State) (w : Fin 16) (k : Nat) : (s.claimDrains w k).guardAddr = s.guardAddr := rfl
@[simp] theorem State.claimDrains_guardLowMarked (s : State) (w : Fin 16) (k : Nat) : (s.claimDrains w k).guardLowMarked = s.guardLowMarked := rfl
@[simp] theorem State.claimDrains_guardHighMarked (s : State) (w : Fin 16) (k : Nat) : (s.claimDrains w k).guardHighMarked = s.guardHighMarked := rfl
@[simp] theorem State.claimDrains_port (s : State) (w : Fin 16) (k : Nat) : (s.claimDrains w k).port = s.port := rfl
@[simp] theorem State.claimDrains_arbiter (s : State) (w : Fin 16) (k : Nat) : (s.claimDrains w k).arbiter = s.arbiter := rfl
@[simp] theorem State.claimDrains_table (s : State) (w : Fin 16) (k : Nat) : (s.claimDrains w k).table = s.table := rfl
@[simp] theorem State.claimDrains_changed (s : State) (w : Fin 16) (k : Nat) : (s.claimDrains w k).changed = s.changed := rfl
@[simp] theorem State.claimDrains_locks (s : State) (w : Fin 16) (k : Nat) : (s.claimDrains w k).locks = s.locks := rfl
@[simp] theorem State.claimDrains_slots (s : State) (w : Fin 16) (k : Nat) : (s.claimDrains w k).slots = s.slots := rfl
@[simp] theorem State.claimDrains_lanes (s : State) (w : Fin 16) (k : Nat) : (s.claimDrains w k).lanes = s.lanes := rfl
@[simp] theorem State.claimDrains_ldi (s : State) (w : Fin 16) (k : Nat) : (s.claimDrains w k).ldi = s.ldi := rfl
@[simp] theorem State.claimDrains_engine (s : State) (w : Fin 16) (k : Nat) : (s.claimDrains w k).engine = s.engine := rfl
@[simp] theorem State.claimDrains_result (s : State) (w : Fin 16) (k : Nat) : (s.claimDrains w k).result = s.result := rfl
@[simp] theorem State.claimDrains_resultMarked (s : State) (w : Fin 16) (k : Nat) : (s.claimDrains w k).resultMarked = s.resultMarked := rfl
@[simp] theorem State.claimDrains_detailMarked (s : State) (w : Fin 16) (k : Nat) : (s.claimDrains w k).detailMarked = s.detailMarked := rfl
@[simp] theorem State.claimDrains_mode (s : State) (w : Fin 16) (k : Nat) : (s.claimDrains w k).mode = s.mode := rfl
@[simp] theorem State.claimDrains_armed (s : State) (w : Fin 16) (k : Nat) : (s.claimDrains w k).armed = s.armed := rfl
@[simp] theorem State.claimDrains_frozen (s : State) (w : Fin 16) (k : Nat) : (s.claimDrains w k).frozen = s.frozen := rfl
@[simp] theorem State.claimDrains_settings (s : State) (w : Fin 16) (k : Nat) : (s.claimDrains w k).settings = s.settings := rfl
@[simp] theorem State.claimDrains_resetCause (s : State) (w : Fin 16) (k : Nat) : (s.claimDrains w k).resetCause = s.resetCause := rfl
@[simp] theorem State.claimDrains_events (s : State) (w : Fin 16) (k : Nat) : (s.claimDrains w k).events = s.events := rfl
@[simp] theorem State.claimDrains_lastCause (s : State) (w : Fin 16) (k : Nat) : (s.claimDrains w k).lastCause = s.lastCause := rfl
@[simp] theorem State.claimDrains_status (s : State) (w : Fin 16) (k : Nat) : (s.claimDrains w k).status = s.status := rfl
@[simp] theorem State.claimDrains_sweep (s : State) (w : Fin 16) (k : Nat) : (s.claimDrains w k).sweep = s.sweep := rfl

@[simp] theorem State.releaseLock_pending (s : State) (w : Fin 16) (k : Nat) : (s.releaseLock w k).pending = s.pending := rfl
@[simp] theorem State.releaseLock_mem (s : State) (w : Fin 16) (k : Nat) : (s.releaseLock w k).mem = s.mem := rfl
@[simp] theorem State.releaseLock_phase (s : State) (w : Fin 16) (k : Nat) : (s.releaseLock w k).phase = s.phase := rfl
@[simp] theorem State.releaseLock_strap (s : State) (w : Fin 16) (k : Nat) : (s.releaseLock w k).strap = s.strap := rfl
@[simp] theorem State.releaseLock_upstream (s : State) (w : Fin 16) (k : Nat) : (s.releaseLock w k).upstream = s.upstream := rfl
@[simp] theorem State.releaseLock_readData (s : State) (w : Fin 16) (k : Nat) : (s.releaseLock w k).readData = s.readData := rfl
@[simp] theorem State.releaseLock_guardAddr (s : State) (w : Fin 16) (k : Nat) : (s.releaseLock w k).guardAddr = s.guardAddr := rfl
@[simp] theorem State.releaseLock_guardLowMarked (s : State) (w : Fin 16) (k : Nat) : (s.releaseLock w k).guardLowMarked = s.guardLowMarked := rfl
@[simp] theorem State.releaseLock_guardHighMarked (s : State) (w : Fin 16) (k : Nat) : (s.releaseLock w k).guardHighMarked = s.guardHighMarked := rfl
@[simp] theorem State.releaseLock_port (s : State) (w : Fin 16) (k : Nat) : (s.releaseLock w k).port = s.port := rfl
@[simp] theorem State.releaseLock_arbiter (s : State) (w : Fin 16) (k : Nat) : (s.releaseLock w k).arbiter = s.arbiter := rfl
@[simp] theorem State.releaseLock_table (s : State) (w : Fin 16) (k : Nat) : (s.releaseLock w k).table = s.table := rfl
@[simp] theorem State.releaseLock_changed (s : State) (w : Fin 16) (k : Nat) : (s.releaseLock w k).changed = s.changed := rfl
@[simp] theorem State.releaseLock_locks (s : State) (w : Fin 16) (k : Nat) : (s.releaseLock w k).locks = s.locks.filter fun l => !l.names w k := rfl
@[simp] theorem State.releaseLock_slots (s : State) (w : Fin 16) (k : Nat) : (s.releaseLock w k).slots = s.slots := rfl
@[simp] theorem State.releaseLock_lanes (s : State) (w : Fin 16) (k : Nat) : (s.releaseLock w k).lanes = s.lanes := rfl
@[simp] theorem State.releaseLock_ldi (s : State) (w : Fin 16) (k : Nat) : (s.releaseLock w k).ldi = s.ldi := rfl
@[simp] theorem State.releaseLock_engine (s : State) (w : Fin 16) (k : Nat) : (s.releaseLock w k).engine = s.engine := rfl
@[simp] theorem State.releaseLock_result (s : State) (w : Fin 16) (k : Nat) : (s.releaseLock w k).result = s.result := rfl
@[simp] theorem State.releaseLock_resultMarked (s : State) (w : Fin 16) (k : Nat) : (s.releaseLock w k).resultMarked = s.resultMarked := rfl
@[simp] theorem State.releaseLock_detailMarked (s : State) (w : Fin 16) (k : Nat) : (s.releaseLock w k).detailMarked = s.detailMarked := rfl
@[simp] theorem State.releaseLock_mode (s : State) (w : Fin 16) (k : Nat) : (s.releaseLock w k).mode = s.mode := rfl
@[simp] theorem State.releaseLock_armed (s : State) (w : Fin 16) (k : Nat) : (s.releaseLock w k).armed = s.armed := rfl
@[simp] theorem State.releaseLock_frozen (s : State) (w : Fin 16) (k : Nat) : (s.releaseLock w k).frozen = s.frozen := rfl
@[simp] theorem State.releaseLock_settings (s : State) (w : Fin 16) (k : Nat) : (s.releaseLock w k).settings = s.settings := rfl
@[simp] theorem State.releaseLock_resetCause (s : State) (w : Fin 16) (k : Nat) : (s.releaseLock w k).resetCause = s.resetCause := rfl
@[simp] theorem State.releaseLock_events (s : State) (w : Fin 16) (k : Nat) : (s.releaseLock w k).events = s.events := rfl
@[simp] theorem State.releaseLock_lastCause (s : State) (w : Fin 16) (k : Nat) : (s.releaseLock w k).lastCause = s.lastCause := rfl
@[simp] theorem State.releaseLock_status (s : State) (w : Fin 16) (k : Nat) : (s.releaseLock w k).status = s.status := rfl
@[simp] theorem State.releaseLock_sweep (s : State) (w : Fin 16) (k : Nat) : (s.releaseLock w k).sweep = s.sweep := rfl

@[simp] theorem State.releaseAll_pending (s : State) : (s.releaseAll).pending = s.pending := rfl
@[simp] theorem State.releaseAll_mem (s : State) : (s.releaseAll).mem = s.mem := rfl
@[simp] theorem State.releaseAll_phase (s : State) : (s.releaseAll).phase = s.phase := rfl
@[simp] theorem State.releaseAll_strap (s : State) : (s.releaseAll).strap = s.strap := rfl
@[simp] theorem State.releaseAll_upstream (s : State) : (s.releaseAll).upstream = s.upstream := rfl
@[simp] theorem State.releaseAll_readData (s : State) : (s.releaseAll).readData = s.readData := rfl
@[simp] theorem State.releaseAll_guardAddr (s : State) : (s.releaseAll).guardAddr = s.guardAddr := rfl
@[simp] theorem State.releaseAll_guardLowMarked (s : State) : (s.releaseAll).guardLowMarked = s.guardLowMarked := rfl
@[simp] theorem State.releaseAll_guardHighMarked (s : State) : (s.releaseAll).guardHighMarked = s.guardHighMarked := rfl
@[simp] theorem State.releaseAll_port (s : State) : (s.releaseAll).port = s.port := rfl
@[simp] theorem State.releaseAll_arbiter (s : State) : (s.releaseAll).arbiter = s.arbiter := rfl
@[simp] theorem State.releaseAll_table (s : State) : (s.releaseAll).table = s.table := rfl
@[simp] theorem State.releaseAll_changed (s : State) : (s.releaseAll).changed = s.changed := rfl
@[simp] theorem State.releaseAll_locks (s : State) : (s.releaseAll).locks = [] := rfl
@[simp] theorem State.releaseAll_slots (s : State) : (s.releaseAll).slots = s.slots := rfl
@[simp] theorem State.releaseAll_lanes (s : State) : (s.releaseAll).lanes = s.lanes := rfl
@[simp] theorem State.releaseAll_ldi (s : State) : (s.releaseAll).ldi = s.ldi := rfl
@[simp] theorem State.releaseAll_engine (s : State) : (s.releaseAll).engine = s.engine := rfl
@[simp] theorem State.releaseAll_result (s : State) : (s.releaseAll).result = s.result := rfl
@[simp] theorem State.releaseAll_resultMarked (s : State) : (s.releaseAll).resultMarked = s.resultMarked := rfl
@[simp] theorem State.releaseAll_detailMarked (s : State) : (s.releaseAll).detailMarked = s.detailMarked := rfl
@[simp] theorem State.releaseAll_mode (s : State) : (s.releaseAll).mode = s.mode := rfl
@[simp] theorem State.releaseAll_armed (s : State) : (s.releaseAll).armed = s.armed := rfl
@[simp] theorem State.releaseAll_frozen (s : State) : (s.releaseAll).frozen = s.frozen := rfl
@[simp] theorem State.releaseAll_settings (s : State) : (s.releaseAll).settings = s.settings := rfl
@[simp] theorem State.releaseAll_resetCause (s : State) : (s.releaseAll).resetCause = s.resetCause := rfl
@[simp] theorem State.releaseAll_events (s : State) : (s.releaseAll).events = s.events := rfl
@[simp] theorem State.releaseAll_lastCause (s : State) : (s.releaseAll).lastCause = s.lastCause := rfl
@[simp] theorem State.releaseAll_status (s : State) : (s.releaseAll).status = s.status := rfl
@[simp] theorem State.releaseAll_sweep (s : State) : (s.releaseAll).sweep = s.sweep := rfl

@[simp] theorem State.fillSlot_pending (s : State) (n : Fin 4) (e : HoldEntry) : (s.fillSlot n e).pending = s.pending := rfl
@[simp] theorem State.fillSlot_mem (s : State) (n : Fin 4) (e : HoldEntry) : (s.fillSlot n e).mem = s.mem := rfl
@[simp] theorem State.fillSlot_phase (s : State) (n : Fin 4) (e : HoldEntry) : (s.fillSlot n e).phase = s.phase := rfl
@[simp] theorem State.fillSlot_strap (s : State) (n : Fin 4) (e : HoldEntry) : (s.fillSlot n e).strap = s.strap := rfl
@[simp] theorem State.fillSlot_upstream (s : State) (n : Fin 4) (e : HoldEntry) : (s.fillSlot n e).upstream = s.upstream := rfl
@[simp] theorem State.fillSlot_readData (s : State) (n : Fin 4) (e : HoldEntry) : (s.fillSlot n e).readData = s.readData := rfl
@[simp] theorem State.fillSlot_guardAddr (s : State) (n : Fin 4) (e : HoldEntry) : (s.fillSlot n e).guardAddr = s.guardAddr := rfl
@[simp] theorem State.fillSlot_guardLowMarked (s : State) (n : Fin 4) (e : HoldEntry) : (s.fillSlot n e).guardLowMarked = s.guardLowMarked := rfl
@[simp] theorem State.fillSlot_guardHighMarked (s : State) (n : Fin 4) (e : HoldEntry) : (s.fillSlot n e).guardHighMarked = s.guardHighMarked := rfl
@[simp] theorem State.fillSlot_port (s : State) (n : Fin 4) (e : HoldEntry) : (s.fillSlot n e).port = s.port := rfl
@[simp] theorem State.fillSlot_arbiter (s : State) (n : Fin 4) (e : HoldEntry) : (s.fillSlot n e).arbiter = s.arbiter := rfl
@[simp] theorem State.fillSlot_table (s : State) (n : Fin 4) (e : HoldEntry) : (s.fillSlot n e).table = s.table := rfl
@[simp] theorem State.fillSlot_changed (s : State) (n : Fin 4) (e : HoldEntry) : (s.fillSlot n e).changed = s.changed := rfl
@[simp] theorem State.fillSlot_locks (s : State) (n : Fin 4) (e : HoldEntry) : (s.fillSlot n e).locks = s.locks := rfl
@[simp] theorem State.fillSlot_slots (s : State) (n : Fin 4) (e : HoldEntry) : (s.fillSlot n e).slots = s.slots.set n (some e) := rfl
@[simp] theorem State.fillSlot_drains (s : State) (n : Fin 4) (e : HoldEntry) : (s.fillSlot n e).drains = s.drains := rfl
@[simp] theorem State.fillSlot_lanes (s : State) (n : Fin 4) (e : HoldEntry) : (s.fillSlot n e).lanes = s.lanes := rfl
@[simp] theorem State.fillSlot_ldi (s : State) (n : Fin 4) (e : HoldEntry) : (s.fillSlot n e).ldi = s.ldi := rfl
@[simp] theorem State.fillSlot_engine (s : State) (n : Fin 4) (e : HoldEntry) : (s.fillSlot n e).engine = s.engine := rfl
@[simp] theorem State.fillSlot_result (s : State) (n : Fin 4) (e : HoldEntry) : (s.fillSlot n e).result = s.result := rfl
@[simp] theorem State.fillSlot_resultMarked (s : State) (n : Fin 4) (e : HoldEntry) : (s.fillSlot n e).resultMarked = s.resultMarked := rfl
@[simp] theorem State.fillSlot_detailMarked (s : State) (n : Fin 4) (e : HoldEntry) : (s.fillSlot n e).detailMarked = s.detailMarked := rfl
@[simp] theorem State.fillSlot_mode (s : State) (n : Fin 4) (e : HoldEntry) : (s.fillSlot n e).mode = s.mode := rfl
@[simp] theorem State.fillSlot_armed (s : State) (n : Fin 4) (e : HoldEntry) : (s.fillSlot n e).armed = s.armed := rfl
@[simp] theorem State.fillSlot_frozen (s : State) (n : Fin 4) (e : HoldEntry) : (s.fillSlot n e).frozen = s.frozen := rfl
@[simp] theorem State.fillSlot_settings (s : State) (n : Fin 4) (e : HoldEntry) : (s.fillSlot n e).settings = s.settings := rfl
@[simp] theorem State.fillSlot_resetCause (s : State) (n : Fin 4) (e : HoldEntry) : (s.fillSlot n e).resetCause = s.resetCause := rfl
@[simp] theorem State.fillSlot_events (s : State) (n : Fin 4) (e : HoldEntry) : (s.fillSlot n e).events = s.events := rfl
@[simp] theorem State.fillSlot_lastCause (s : State) (n : Fin 4) (e : HoldEntry) : (s.fillSlot n e).lastCause = s.lastCause := rfl
@[simp] theorem State.fillSlot_status (s : State) (n : Fin 4) (e : HoldEntry) : (s.fillSlot n e).status = s.status := rfl
@[simp] theorem State.fillSlot_sweep (s : State) (n : Fin 4) (e : HoldEntry) : (s.fillSlot n e).sweep = s.sweep := rfl

@[simp] theorem State.dropSlot_pending (s : State) (n : Fin 4) : (s.dropSlot n).pending = s.pending := rfl
@[simp] theorem State.dropSlot_mem (s : State) (n : Fin 4) : (s.dropSlot n).mem = s.mem := rfl
@[simp] theorem State.dropSlot_phase (s : State) (n : Fin 4) : (s.dropSlot n).phase = s.phase := rfl
@[simp] theorem State.dropSlot_strap (s : State) (n : Fin 4) : (s.dropSlot n).strap = s.strap := rfl
@[simp] theorem State.dropSlot_upstream (s : State) (n : Fin 4) : (s.dropSlot n).upstream = s.upstream := rfl
@[simp] theorem State.dropSlot_readData (s : State) (n : Fin 4) : (s.dropSlot n).readData = s.readData := rfl
@[simp] theorem State.dropSlot_guardAddr (s : State) (n : Fin 4) : (s.dropSlot n).guardAddr = s.guardAddr := rfl
@[simp] theorem State.dropSlot_guardLowMarked (s : State) (n : Fin 4) : (s.dropSlot n).guardLowMarked = s.guardLowMarked := rfl
@[simp] theorem State.dropSlot_guardHighMarked (s : State) (n : Fin 4) : (s.dropSlot n).guardHighMarked = s.guardHighMarked := rfl
@[simp] theorem State.dropSlot_port (s : State) (n : Fin 4) : (s.dropSlot n).port = s.port := rfl
@[simp] theorem State.dropSlot_arbiter (s : State) (n : Fin 4) : (s.dropSlot n).arbiter = s.arbiter := rfl
@[simp] theorem State.dropSlot_table (s : State) (n : Fin 4) : (s.dropSlot n).table = s.table := rfl
@[simp] theorem State.dropSlot_changed (s : State) (n : Fin 4) : (s.dropSlot n).changed = s.changed := rfl
@[simp] theorem State.dropSlot_locks (s : State) (n : Fin 4) : (s.dropSlot n).locks = s.locks := rfl
@[simp] theorem State.dropSlot_slots (s : State) (n : Fin 4) : (s.dropSlot n).slots = s.slots.set n none := rfl
@[simp] theorem State.dropSlot_drains (s : State) (n : Fin 4) : (s.dropSlot n).drains = s.drains.set n false := rfl
@[simp] theorem State.dropSlot_lanes (s : State) (n : Fin 4) : (s.dropSlot n).lanes = s.lanes := rfl
@[simp] theorem State.dropSlot_ldi (s : State) (n : Fin 4) : (s.dropSlot n).ldi = s.ldi := rfl
@[simp] theorem State.dropSlot_engine (s : State) (n : Fin 4) : (s.dropSlot n).engine = s.engine := rfl
@[simp] theorem State.dropSlot_result (s : State) (n : Fin 4) : (s.dropSlot n).result = s.result := rfl
@[simp] theorem State.dropSlot_resultMarked (s : State) (n : Fin 4) : (s.dropSlot n).resultMarked = s.resultMarked := rfl
@[simp] theorem State.dropSlot_detailMarked (s : State) (n : Fin 4) : (s.dropSlot n).detailMarked = s.detailMarked := rfl
@[simp] theorem State.dropSlot_mode (s : State) (n : Fin 4) : (s.dropSlot n).mode = s.mode := rfl
@[simp] theorem State.dropSlot_armed (s : State) (n : Fin 4) : (s.dropSlot n).armed = s.armed := rfl
@[simp] theorem State.dropSlot_frozen (s : State) (n : Fin 4) : (s.dropSlot n).frozen = s.frozen := rfl
@[simp] theorem State.dropSlot_settings (s : State) (n : Fin 4) : (s.dropSlot n).settings = s.settings := rfl
@[simp] theorem State.dropSlot_resetCause (s : State) (n : Fin 4) : (s.dropSlot n).resetCause = s.resetCause := rfl
@[simp] theorem State.dropSlot_events (s : State) (n : Fin 4) : (s.dropSlot n).events = s.events := rfl
@[simp] theorem State.dropSlot_lastCause (s : State) (n : Fin 4) : (s.dropSlot n).lastCause = s.lastCause := rfl
@[simp] theorem State.dropSlot_status (s : State) (n : Fin 4) : (s.dropSlot n).status = s.status := rfl
@[simp] theorem State.dropSlot_sweep (s : State) (n : Fin 4) : (s.dropSlot n).sweep = s.sweep := rfl

@[simp] theorem State.addChanged_pending (s : State) (w : Fin 16) (k : Nat) : (s.addChanged w k).pending = s.pending := by unfold State.addChanged; split <;> rfl
@[simp] theorem State.addChanged_mem (s : State) (w : Fin 16) (k : Nat) : (s.addChanged w k).mem = s.mem := by unfold State.addChanged; split <;> rfl
@[simp] theorem State.addChanged_phase (s : State) (w : Fin 16) (k : Nat) : (s.addChanged w k).phase = s.phase := by unfold State.addChanged; split <;> rfl
@[simp] theorem State.addChanged_strap (s : State) (w : Fin 16) (k : Nat) : (s.addChanged w k).strap = s.strap := by unfold State.addChanged; split <;> rfl
@[simp] theorem State.addChanged_upstream (s : State) (w : Fin 16) (k : Nat) : (s.addChanged w k).upstream = s.upstream := by unfold State.addChanged; split <;> rfl
@[simp] theorem State.addChanged_readData (s : State) (w : Fin 16) (k : Nat) : (s.addChanged w k).readData = s.readData := by unfold State.addChanged; split <;> rfl
@[simp] theorem State.addChanged_guardAddr (s : State) (w : Fin 16) (k : Nat) : (s.addChanged w k).guardAddr = s.guardAddr := by unfold State.addChanged; split <;> rfl
@[simp] theorem State.addChanged_guardLowMarked (s : State) (w : Fin 16) (k : Nat) : (s.addChanged w k).guardLowMarked = s.guardLowMarked := by unfold State.addChanged; split <;> rfl
@[simp] theorem State.addChanged_guardHighMarked (s : State) (w : Fin 16) (k : Nat) : (s.addChanged w k).guardHighMarked = s.guardHighMarked := by unfold State.addChanged; split <;> rfl
@[simp] theorem State.addChanged_port (s : State) (w : Fin 16) (k : Nat) : (s.addChanged w k).port = s.port := by unfold State.addChanged; split <;> rfl
@[simp] theorem State.addChanged_arbiter (s : State) (w : Fin 16) (k : Nat) : (s.addChanged w k).arbiter = s.arbiter := by unfold State.addChanged; split <;> rfl
@[simp] theorem State.addChanged_table (s : State) (w : Fin 16) (k : Nat) : (s.addChanged w k).table = s.table := by unfold State.addChanged; split <;> rfl
@[simp] theorem State.addChanged_locks (s : State) (w : Fin 16) (k : Nat) : (s.addChanged w k).locks = s.locks := by unfold State.addChanged; split <;> rfl
@[simp] theorem State.addChanged_slots (s : State) (w : Fin 16) (k : Nat) : (s.addChanged w k).slots = s.slots := by unfold State.addChanged; split <;> rfl
@[simp] theorem State.addChanged_drains (s : State) (w : Fin 16) (k : Nat) : (s.addChanged w k).drains = s.drains := by unfold State.addChanged; split <;> rfl
@[simp] theorem State.addChanged_lanes (s : State) (w : Fin 16) (k : Nat) : (s.addChanged w k).lanes = s.lanes := by unfold State.addChanged; split <;> rfl
@[simp] theorem State.addChanged_ldi (s : State) (w : Fin 16) (k : Nat) : (s.addChanged w k).ldi = s.ldi := by unfold State.addChanged; split <;> rfl
@[simp] theorem State.addChanged_engine (s : State) (w : Fin 16) (k : Nat) : (s.addChanged w k).engine = s.engine := by unfold State.addChanged; split <;> rfl
@[simp] theorem State.addChanged_result (s : State) (w : Fin 16) (k : Nat) : (s.addChanged w k).result = s.result := by unfold State.addChanged; split <;> rfl
@[simp] theorem State.addChanged_resultMarked (s : State) (w : Fin 16) (k : Nat) : (s.addChanged w k).resultMarked = s.resultMarked := by unfold State.addChanged; split <;> rfl
@[simp] theorem State.addChanged_detailMarked (s : State) (w : Fin 16) (k : Nat) : (s.addChanged w k).detailMarked = s.detailMarked := by unfold State.addChanged; split <;> rfl
@[simp] theorem State.addChanged_mode (s : State) (w : Fin 16) (k : Nat) : (s.addChanged w k).mode = s.mode := by unfold State.addChanged; split <;> rfl
@[simp] theorem State.addChanged_armed (s : State) (w : Fin 16) (k : Nat) : (s.addChanged w k).armed = s.armed := by unfold State.addChanged; split <;> rfl
@[simp] theorem State.addChanged_frozen (s : State) (w : Fin 16) (k : Nat) : (s.addChanged w k).frozen = s.frozen := by unfold State.addChanged; split <;> rfl
@[simp] theorem State.addChanged_settings (s : State) (w : Fin 16) (k : Nat) : (s.addChanged w k).settings = s.settings := by unfold State.addChanged; split <;> rfl
@[simp] theorem State.addChanged_resetCause (s : State) (w : Fin 16) (k : Nat) : (s.addChanged w k).resetCause = s.resetCause := by unfold State.addChanged; split <;> rfl
@[simp] theorem State.addChanged_events (s : State) (w : Fin 16) (k : Nat) : (s.addChanged w k).events = s.events := by unfold State.addChanged; split <;> rfl
@[simp] theorem State.addChanged_lastCause (s : State) (w : Fin 16) (k : Nat) : (s.addChanged w k).lastCause = s.lastCause := by unfold State.addChanged; split <;> rfl
@[simp] theorem State.addChanged_status (s : State) (w : Fin 16) (k : Nat) : (s.addChanged w k).status = s.status := by unfold State.addChanged; split <;> rfl
@[simp] theorem State.addChanged_sweep (s : State) (w : Fin 16) (k : Nat) : (s.addChanged w k).sweep = s.sweep := by unfold State.addChanged; split <;> rfl

@[simp] theorem State.removeChanged_pending (s : State) (w : Fin 16) (k : Nat) : (s.removeChanged w k).pending = s.pending := by unfold State.removeChanged; split <;> rfl
@[simp] theorem State.removeChanged_mem (s : State) (w : Fin 16) (k : Nat) : (s.removeChanged w k).mem = s.mem := by unfold State.removeChanged; split <;> rfl
@[simp] theorem State.removeChanged_phase (s : State) (w : Fin 16) (k : Nat) : (s.removeChanged w k).phase = s.phase := by unfold State.removeChanged; split <;> rfl
@[simp] theorem State.removeChanged_strap (s : State) (w : Fin 16) (k : Nat) : (s.removeChanged w k).strap = s.strap := by unfold State.removeChanged; split <;> rfl
@[simp] theorem State.removeChanged_upstream (s : State) (w : Fin 16) (k : Nat) : (s.removeChanged w k).upstream = s.upstream := by unfold State.removeChanged; split <;> rfl
@[simp] theorem State.removeChanged_readData (s : State) (w : Fin 16) (k : Nat) : (s.removeChanged w k).readData = s.readData := by unfold State.removeChanged; split <;> rfl
@[simp] theorem State.removeChanged_guardAddr (s : State) (w : Fin 16) (k : Nat) : (s.removeChanged w k).guardAddr = s.guardAddr := by unfold State.removeChanged; split <;> rfl
@[simp] theorem State.removeChanged_guardLowMarked (s : State) (w : Fin 16) (k : Nat) : (s.removeChanged w k).guardLowMarked = s.guardLowMarked := by unfold State.removeChanged; split <;> rfl
@[simp] theorem State.removeChanged_guardHighMarked (s : State) (w : Fin 16) (k : Nat) : (s.removeChanged w k).guardHighMarked = s.guardHighMarked := by unfold State.removeChanged; split <;> rfl
@[simp] theorem State.removeChanged_port (s : State) (w : Fin 16) (k : Nat) : (s.removeChanged w k).port = s.port := by unfold State.removeChanged; split <;> rfl
@[simp] theorem State.removeChanged_arbiter (s : State) (w : Fin 16) (k : Nat) : (s.removeChanged w k).arbiter = s.arbiter := by unfold State.removeChanged; split <;> rfl
@[simp] theorem State.removeChanged_table (s : State) (w : Fin 16) (k : Nat) : (s.removeChanged w k).table = s.table := by unfold State.removeChanged; split <;> rfl
@[simp] theorem State.removeChanged_locks (s : State) (w : Fin 16) (k : Nat) : (s.removeChanged w k).locks = s.locks := by unfold State.removeChanged; split <;> rfl
@[simp] theorem State.removeChanged_slots (s : State) (w : Fin 16) (k : Nat) : (s.removeChanged w k).slots = s.slots := by unfold State.removeChanged; split <;> rfl
@[simp] theorem State.removeChanged_drains (s : State) (w : Fin 16) (k : Nat) : (s.removeChanged w k).drains = s.drains := by unfold State.removeChanged; split <;> rfl
@[simp] theorem State.removeChanged_lanes (s : State) (w : Fin 16) (k : Nat) : (s.removeChanged w k).lanes = s.lanes := by unfold State.removeChanged; split <;> rfl
@[simp] theorem State.removeChanged_ldi (s : State) (w : Fin 16) (k : Nat) : (s.removeChanged w k).ldi = s.ldi := by unfold State.removeChanged; split <;> rfl
@[simp] theorem State.removeChanged_engine (s : State) (w : Fin 16) (k : Nat) : (s.removeChanged w k).engine = s.engine := by unfold State.removeChanged; split <;> rfl
@[simp] theorem State.removeChanged_result (s : State) (w : Fin 16) (k : Nat) : (s.removeChanged w k).result = s.result := by unfold State.removeChanged; split <;> rfl
@[simp] theorem State.removeChanged_resultMarked (s : State) (w : Fin 16) (k : Nat) : (s.removeChanged w k).resultMarked = s.resultMarked := by unfold State.removeChanged; split <;> rfl
@[simp] theorem State.removeChanged_detailMarked (s : State) (w : Fin 16) (k : Nat) : (s.removeChanged w k).detailMarked = s.detailMarked := by unfold State.removeChanged; split <;> rfl
@[simp] theorem State.removeChanged_mode (s : State) (w : Fin 16) (k : Nat) : (s.removeChanged w k).mode = s.mode := by unfold State.removeChanged; split <;> rfl
@[simp] theorem State.removeChanged_armed (s : State) (w : Fin 16) (k : Nat) : (s.removeChanged w k).armed = s.armed := by unfold State.removeChanged; split <;> rfl
@[simp] theorem State.removeChanged_frozen (s : State) (w : Fin 16) (k : Nat) : (s.removeChanged w k).frozen = s.frozen := by unfold State.removeChanged; split <;> rfl
@[simp] theorem State.removeChanged_settings (s : State) (w : Fin 16) (k : Nat) : (s.removeChanged w k).settings = s.settings := by unfold State.removeChanged; split <;> rfl
@[simp] theorem State.removeChanged_resetCause (s : State) (w : Fin 16) (k : Nat) : (s.removeChanged w k).resetCause = s.resetCause := by unfold State.removeChanged; split <;> rfl
@[simp] theorem State.removeChanged_events (s : State) (w : Fin 16) (k : Nat) : (s.removeChanged w k).events = s.events := by unfold State.removeChanged; split <;> rfl
@[simp] theorem State.removeChanged_lastCause (s : State) (w : Fin 16) (k : Nat) : (s.removeChanged w k).lastCause = s.lastCause := by unfold State.removeChanged; split <;> rfl
@[simp] theorem State.removeChanged_status (s : State) (w : Fin 16) (k : Nat) : (s.removeChanged w k).status = s.status := by unfold State.removeChanged; split <;> rfl
@[simp] theorem State.removeChanged_sweep (s : State) (w : Fin 16) (k : Nat) : (s.removeChanged w k).sweep = s.sweep := by unfold State.removeChanged; split <;> rfl

@[simp] theorem State.endBurst_pending (s : State) : (s.endBurst).pending = s.pending := by unfold State.endBurst; split <;> rfl
@[simp] theorem State.endBurst_phase (s : State) : (s.endBurst).phase = s.phase := by unfold State.endBurst; split <;> rfl
@[simp] theorem State.endBurst_strap (s : State) : (s.endBurst).strap = s.strap := by unfold State.endBurst; split <;> rfl
@[simp] theorem State.endBurst_upstream (s : State) : (s.endBurst).upstream = s.upstream := by unfold State.endBurst; split <;> rfl
@[simp] theorem State.endBurst_readData (s : State) : (s.endBurst).readData = s.readData := by unfold State.endBurst; split <;> rfl
@[simp] theorem State.endBurst_guardAddr (s : State) : (s.endBurst).guardAddr = s.guardAddr := by unfold State.endBurst; split <;> rfl
@[simp] theorem State.endBurst_guardLowMarked (s : State) : (s.endBurst).guardLowMarked = s.guardLowMarked := by unfold State.endBurst; split <;> rfl
@[simp] theorem State.endBurst_guardHighMarked (s : State) : (s.endBurst).guardHighMarked = s.guardHighMarked := by unfold State.endBurst; split <;> rfl
@[simp] theorem State.endBurst_arbiter (s : State) : (s.endBurst).arbiter = s.arbiter := by unfold State.endBurst; split <;> rfl
@[simp] theorem State.endBurst_table (s : State) : (s.endBurst).table = s.table := by unfold State.endBurst; split <;> rfl
@[simp] theorem State.endBurst_changed (s : State) : (s.endBurst).changed = s.changed := by unfold State.endBurst; split <;> rfl
@[simp] theorem State.endBurst_locks (s : State) : (s.endBurst).locks = s.locks := by unfold State.endBurst; split <;> rfl
@[simp] theorem State.endBurst_slots (s : State) : (s.endBurst).slots = s.slots := by unfold State.endBurst; split <;> rfl
@[simp] theorem State.endBurst_drains (s : State) : (s.endBurst).drains = s.drains := by unfold State.endBurst; split <;> rfl
@[simp] theorem State.endBurst_lanes (s : State) : (s.endBurst).lanes = s.lanes := by unfold State.endBurst; split <;> rfl
@[simp] theorem State.endBurst_ldi (s : State) : (s.endBurst).ldi = s.ldi := by unfold State.endBurst; split <;> rfl
@[simp] theorem State.endBurst_engine (s : State) : (s.endBurst).engine = s.engine := by unfold State.endBurst; split <;> rfl
@[simp] theorem State.endBurst_result (s : State) : (s.endBurst).result = s.result := by unfold State.endBurst; split <;> rfl
@[simp] theorem State.endBurst_resultMarked (s : State) : (s.endBurst).resultMarked = s.resultMarked := by unfold State.endBurst; split <;> rfl
@[simp] theorem State.endBurst_detailMarked (s : State) : (s.endBurst).detailMarked = s.detailMarked := by unfold State.endBurst; split <;> rfl
@[simp] theorem State.endBurst_mode (s : State) : (s.endBurst).mode = s.mode := by unfold State.endBurst; split <;> rfl
@[simp] theorem State.endBurst_armed (s : State) : (s.endBurst).armed = s.armed := by unfold State.endBurst; split <;> rfl
@[simp] theorem State.endBurst_frozen (s : State) : (s.endBurst).frozen = s.frozen := by unfold State.endBurst; split <;> rfl
@[simp] theorem State.endBurst_settings (s : State) : (s.endBurst).settings = s.settings := by unfold State.endBurst; split <;> rfl
@[simp] theorem State.endBurst_resetCause (s : State) : (s.endBurst).resetCause = s.resetCause := by unfold State.endBurst; split <;> rfl
@[simp] theorem State.endBurst_events (s : State) : (s.endBurst).events = s.events := by unfold State.endBurst; split <;> rfl
@[simp] theorem State.endBurst_lastCause (s : State) : (s.endBurst).lastCause = s.lastCause := by unfold State.endBurst; split <;> rfl
@[simp] theorem State.endBurst_status (s : State) : (s.endBurst).status = s.status := by unfold State.endBurst; split <;> rfl
@[simp] theorem State.endBurst_sweep (s : State) : (s.endBurst).sweep = s.sweep := by unfold State.endBurst; split <;> rfl

@[simp] theorem State.enterStopped_pending (s : State) (n : Fin 4) (d : Bool) : (s.enterStopped n d).pending = s.pending := by unfold State.enterStopped; split <;> rfl
@[simp] theorem State.enterStopped_mem (s : State) (n : Fin 4) (d : Bool) : (s.enterStopped n d).mem = s.mem := by unfold State.enterStopped; split <;> rfl
@[simp] theorem State.enterStopped_phase (s : State) (n : Fin 4) (d : Bool) : (s.enterStopped n d).phase = s.phase := by unfold State.enterStopped; split <;> rfl
@[simp] theorem State.enterStopped_strap (s : State) (n : Fin 4) (d : Bool) : (s.enterStopped n d).strap = s.strap := by unfold State.enterStopped; split <;> rfl
@[simp] theorem State.enterStopped_upstream (s : State) (n : Fin 4) (d : Bool) : (s.enterStopped n d).upstream = s.upstream := by unfold State.enterStopped; split <;> rfl
@[simp] theorem State.enterStopped_readData (s : State) (n : Fin 4) (d : Bool) : (s.enterStopped n d).readData = s.readData := by unfold State.enterStopped; split <;> rfl
@[simp] theorem State.enterStopped_guardAddr (s : State) (n : Fin 4) (d : Bool) : (s.enterStopped n d).guardAddr = s.guardAddr := by unfold State.enterStopped; split <;> rfl
@[simp] theorem State.enterStopped_guardLowMarked (s : State) (n : Fin 4) (d : Bool) : (s.enterStopped n d).guardLowMarked = s.guardLowMarked := by unfold State.enterStopped; split <;> rfl
@[simp] theorem State.enterStopped_guardHighMarked (s : State) (n : Fin 4) (d : Bool) : (s.enterStopped n d).guardHighMarked = s.guardHighMarked := by unfold State.enterStopped; split <;> rfl
@[simp] theorem State.enterStopped_port (s : State) (n : Fin 4) (d : Bool) : (s.enterStopped n d).port = s.port := by unfold State.enterStopped; split <;> rfl
@[simp] theorem State.enterStopped_arbiter (s : State) (n : Fin 4) (d : Bool) : (s.enterStopped n d).arbiter = s.arbiter := by unfold State.enterStopped; split <;> rfl
@[simp] theorem State.enterStopped_table (s : State) (n : Fin 4) (d : Bool) : (s.enterStopped n d).table = s.table := by unfold State.enterStopped; split <;> rfl
@[simp] theorem State.enterStopped_changed (s : State) (n : Fin 4) (d : Bool) : (s.enterStopped n d).changed = s.changed := by unfold State.enterStopped; split <;> rfl
@[simp] theorem State.enterStopped_locks (s : State) (n : Fin 4) (d : Bool) : (s.enterStopped n d).locks = s.locks := by unfold State.enterStopped; split <;> rfl
@[simp] theorem State.enterStopped_slots (s : State) (n : Fin 4) (d : Bool) : (s.enterStopped n d).slots = s.slots := by unfold State.enterStopped; split <;> rfl
@[simp] theorem State.enterStopped_drains (s : State) (n : Fin 4) (d : Bool) : (s.enterStopped n d).drains = s.drains := by unfold State.enterStopped; split <;> rfl
@[simp] theorem State.enterStopped_lanes (s : State) (n : Fin 4) (d : Bool) : (s.enterStopped n d).lanes = s.lanes.set n ((s.lane n).restAs .stopped) := by unfold State.enterStopped; split <;> rfl
@[simp] theorem State.enterStopped_ldi (s : State) (n : Fin 4) (d : Bool) : (s.enterStopped n d).ldi = s.ldi := by unfold State.enterStopped; split <;> rfl
@[simp] theorem State.enterStopped_engine (s : State) (n : Fin 4) (d : Bool) : (s.enterStopped n d).engine = s.engine := by unfold State.enterStopped; split <;> rfl
@[simp] theorem State.enterStopped_result (s : State) (n : Fin 4) (d : Bool) : (s.enterStopped n d).result = s.result := by unfold State.enterStopped; split <;> rfl
@[simp] theorem State.enterStopped_resultMarked (s : State) (n : Fin 4) (d : Bool) : (s.enterStopped n d).resultMarked = s.resultMarked := by unfold State.enterStopped; split <;> rfl
@[simp] theorem State.enterStopped_detailMarked (s : State) (n : Fin 4) (d : Bool) : (s.enterStopped n d).detailMarked = s.detailMarked := by unfold State.enterStopped; split <;> rfl
@[simp] theorem State.enterStopped_mode (s : State) (n : Fin 4) (d : Bool) : (s.enterStopped n d).mode = s.mode := by unfold State.enterStopped; split <;> rfl
@[simp] theorem State.enterStopped_armed (s : State) (n : Fin 4) (d : Bool) : (s.enterStopped n d).armed = s.armed := by unfold State.enterStopped; split <;> rfl
@[simp] theorem State.enterStopped_frozen (s : State) (n : Fin 4) (d : Bool) : (s.enterStopped n d).frozen = s.frozen := by unfold State.enterStopped; split <;> rfl
@[simp] theorem State.enterStopped_settings (s : State) (n : Fin 4) (d : Bool) : (s.enterStopped n d).settings = s.settings := by unfold State.enterStopped; split <;> rfl
@[simp] theorem State.enterStopped_resetCause (s : State) (n : Fin 4) (d : Bool) : (s.enterStopped n d).resetCause = s.resetCause := by unfold State.enterStopped; split <;> rfl
@[simp] theorem State.enterStopped_lastCause (s : State) (n : Fin 4) (d : Bool) : (s.enterStopped n d).lastCause = s.lastCause := by unfold State.enterStopped; split <;> rfl
@[simp] theorem State.enterStopped_status (s : State) (n : Fin 4) (d : Bool) : (s.enterStopped n d).status = s.status := by unfold State.enterStopped; split <;> rfl
@[simp] theorem State.enterStopped_sweep (s : State) (n : Fin 4) (d : Bool) : (s.enterStopped n d).sweep = s.sweep := by unfold State.enterStopped; split <;> rfl

/-! ### Lanes, windows and sets of an updated state -/

@[simp] theorem State.lane_setLane_same (s : State) (n : Fin 4) (l : Lane) : (s.setLane n l).lane n = l := by
  simp [State.lane]

theorem State.lane_setLane (s : State) (m n : Fin 4) (l : Lane) :
    (s.setLane n l).lane m = if m = n then l else s.lane m := by
  simp [State.lane, Four.get_set]

theorem State.lane_setLane_other (s : State) (m n : Fin 4) (l : Lane) (h : m ≠ n) : (s.setLane n l).lane m = s.lane m := by
  simp [State.lane_setLane, h]

@[simp] theorem State.setLane_setLane (s : State) (n : Fin 4) (l k : Lane) : (s.setLane n l).setLane n k = s.setLane n k := by
  simp [State.setLane]

@[simp] theorem State.setLane_lane (s : State) (n : Fin 4) : s.setLane n (s.lane n) = s := by
  simp [State.setLane, State.lane]

@[simp] theorem State.window_setLane (s : State) (n : Fin 4) (l : Lane) (w : Fin 16) : (s.setLane n l).window w = s.window w := rfl

@[simp] theorem State.lane_raise (s : State) (e : Event) (n : Fin 4) : (s.raise e).lane n = s.lane n := rfl

@[simp] theorem State.window_raise (s : State) (e : Event) (w : Fin 16) : (s.raise e).window w = s.window w := rfl

/-- The set of window u after index k is added to that of window w. -/
theorem State.changedSet_addChanged (s : State) (u w : Fin 16) (k : Nat) :
    (s.addChanged w k).changedSet u =
      if u = w ∧ (s.window w).tracked = true then insertIndex k (s.changedSet w) else s.changedSet u := by
  by_cases ht : (s.window w).tracked
  · by_cases hu : u = w <;> simp [State.addChanged, State.changedSet, ht, hu, Sixteen.get_set]
  · simp [State.addChanged, ht]

/-- The set of window u after index k is taken out of that of window w. -/
theorem State.changedSet_removeChanged (s : State) (u w : Fin 16) (k : Nat) :
    (s.removeChanged w k).changedSet u =
      if u = w ∧ (s.window w).tracked = true then removeIndex k (s.changedSet w) else s.changedSet u := by
  by_cases ht : (s.window w).tracked
  · by_cases hu : u = w <;> simp [State.removeChanged, State.changedSet, ht, hu, Sixteen.get_set]
  · simp [State.removeChanged, ht]

/-- The set of window w after a fill. -/
theorem State.changedSet_fillSets (s : State) (p : Fin 16 → Bool) (w : Fin 16) :
    (s.fillSets p).changedSet w =
      if (s.window w).tracked && p w then List.range (s.window w).count else s.changedSet w := by
  simp [State.fillSets, State.changedSet]

/-! ### Sets of indices -/

/-- The members after an insertion. -/
theorem mem_insertIndex (k j : Nat) (l : List Nat) : j ∈ insertIndex k l ↔ j = k ∨ j ∈ l := by
  induction l with
  | nil => simp [insertIndex]
  | cons x rest ih =>
    simp only [insertIndex]
    split
    · simp
    · split
      · rename_i h; subst h; simp
      · simp only [List.mem_cons, ih]; tauto

/-- The members after a removal. -/
theorem mem_removeIndex (k j : Nat) (l : List Nat) : j ∈ removeIndex k l ↔ j ∈ l ∧ j ≠ k := by
  simp [removeIndex]

/-- An insertion keeps the ascending order. -/
theorem pairwise_insertIndex (k : Nat) (l : List Nat) (h : l.Pairwise (· < ·)) : (insertIndex k l).Pairwise (· < ·) := by
  induction l with
  | nil => simp [insertIndex]
  | cons x rest ih =>
    simp only [insertIndex]
    rw [List.pairwise_cons] at h
    split
    · rename_i hk
      rw [List.pairwise_cons, List.pairwise_cons]
      refine ⟨fun y hy => ?_, h⟩
      rcases List.mem_cons.1 hy with rfl | hy
      · exact hk
      · exact Nat.lt_trans hk (h.1 y hy)
    · split
      · rw [List.pairwise_cons]; exact h
      · rename_i h1 h2
        rw [List.pairwise_cons]
        refine ⟨fun y hy => ?_, ih h.2⟩
        rcases (mem_insertIndex k y rest).1 hy with rfl | hy
        · omega
        · exact h.1 y hy

/-- A removal keeps the ascending order. -/
theorem pairwise_removeIndex (k : Nat) (l : List Nat) (h : l.Pairwise (· < ·)) : (removeIndex k l).Pairwise (· < ·) :=
  List.Pairwise.filter _ h

/-! ### Finishing long commands -/

/-- With the engine IDLE there is no command to finish. -/
theorem State.settle_idle (s : State) (h : s.engine = .idle) : s.settle = s := by
  simp [State.settle, h]

end Sys2Proof.Machine
end

