-- ==== Sys2Proof/Laws/Frames.lean ====
section
/-! SUPPORT. What the shared operations can change: an operation on lane n touches that lane, the pending set and the changed
sets; the finishing of a long command touches the command engine, the window table, the locks, the sets and the pending set. -/

namespace Sys2Proof.Machine

/-! ### Operations on one lane -/

/-- t differs from s at most in lane n, the pending set and the changed sets. -/
def LaneFrame (n : Fin 4) (s t : State) : Prop :=
  t = { s with lanes := t.lanes, events := t.events, changed := t.changed } ∧ ∀ m, m ≠ n → t.lane m = s.lane m

namespace LaneFrame

theorem refl (n : Fin 4) (s : State) : LaneFrame n s s := ⟨rfl, fun _ _ => rfl⟩

theorem trans {n : Fin 4} {s t u : State} (h : LaneFrame n s t) (k : LaneFrame n t u) : LaneFrame n s u := by
  obtain ⟨h1, h2⟩ := h
  obtain ⟨k1, k2⟩ := k
  refine ⟨?_, fun m hm => (k2 m hm).trans (h2 m hm)⟩
  rw [k1, h1]

theorem setLane (s : State) (n : Fin 4) (l : Lane) : LaneFrame n s (s.setLane n l) :=
  ⟨rfl, fun m hm => State.lane_setLane_other s m n l hm⟩

theorem raise (n : Fin 4) (s : State) (e : Event) : LaneFrame n s (s.raise e) := ⟨rfl, fun _ _ => rfl⟩

theorem addChanged (n : Fin 4) (s : State) (w : Fin 16) (k : Nat) : LaneFrame n s (s.addChanged w k) := by
  unfold State.addChanged
  split
  · exact ⟨rfl, fun _ _ => rfl⟩
  · exact refl n s

theorem fillSets (n : Fin 4) (s : State) (p : Fin 16 → Bool) : LaneFrame n s (s.fillSets p) := ⟨rfl, fun _ _ => rfl⟩

theorem enterStopped (s : State) (n : Fin 4) (d : Bool) : LaneFrame n s (s.enterStopped n d) := by
  unfold State.enterStopped
  cases d
  · exact setLane s n _
  · exact (setLane s n _).trans (raise n _ _)

theorem enterFaulted (s : State) (n : Fin 4) : LaneFrame n s (s.enterFaulted n) :=
  (setLane s n _).trans (raise n _ _)

theorem structuralFault (s : State) (n : Fin 4) (c : ErrorCode) (i : Fin 64) : LaneFrame n s (s.structuralFault n c i) :=
  (setLane s n _).trans (enterFaulted _ n)

theorem placeFetch (s : State) (n : Fin 4) (i : Fin 64) : LaneFrame n s (s.placeFetch n i) := by
  unfold State.placeFetch
  dsimp only
  split
  · exact setLane s n _
  · exact (setLane s n _).trans (structuralFault _ n _ _)

theorem startCycle (s : State) (n : Fin 4) : LaneFrame n s (s.startCycle n) :=
  (setLane s n _).trans (placeFetch _ n 0)

theorem nextStep (s : State) (n : Fin 4) (i : Nat) : LaneFrame n s (s.nextStep n i) := by
  unfold State.nextStep
  split
  · exact enterStopped s n true
  · split
    · exact placeFetch s n _
    · exact structuralFault s n _ _

theorem endStep (s : State) (n : Fin 4) : LaneFrame n s (s.endStep n) := nextStep s n _

theorem endCycle (s : State) (n : Fin 4) : LaneFrame n s (s.endCycle n) := by
  unfold State.endCycle
  dsimp only
  split
  · exact enterStopped s n true
  · split
    · exact enterStopped s n true
    · split
      · exact (setLane s n _).trans (startCycle _ n)
      · exact setLane s n _

theorem cutWork (s : State) (n : Fin 4) (b : Bool) : LaneFrame n s (s.cutWork n b) := by
  unfold State.cutWork
  dsimp only
  split
  · split
    · exact (setLane s n _).trans (addChanged n _ _ _)
    · exact setLane s n _
  · exact setLane s n _

theorem cutLane (s : State) (n : Fin 4) (b : Bool) : LaneFrame n s (s.cutLane n b) := by
  unfold State.cutLane
  split
  · exact (cutWork s n b).trans (enterStopped _ n false)
  · exact refl n s

theorem beginRun (s : State) (n : Fin 4) (m : StartMode) : LaneFrame n s (s.beginRun n m) := by
  unfold State.beginRun
  dsimp only
  split
  · exact (setLane s n _).trans (fillSets n _ _)
  · exact ((setLane s n _).trans (fillSets n _ _)).trans (startCycle _ n)

theorem startLane (s : State) (n : Fin 4) (m : StartMode) : LaneFrame n s (s.startLane n m) := by
  unfold State.startLane
  dsimp only
  split
  · exact (cutWork s n true).trans (beginRun _ n m)
  · exact beginRun s n m

theorem requestCall (s : State) (n : Fin 4) (c : Call) : LaneFrame n s (s.requestCall n c) := setLane s n _

theorem takeSend (s : State) (n : Fin 4) (b : Bool) (sel : Selection) (k : Nat) : LaneFrame n s (s.takeSend n b sel k) := by
  unfold State.takeSend
  dsimp only
  split
  · split
    · exact setLane s n _
    · exact (setLane s n _).trans (endStep _ n)
  · exact setLane s n _

theorem takeFetch (s : State) (n : Fin 4) (b : Bool) (sel : Selection) (k : Nat) : LaneFrame n s (s.takeFetch n b sel k) :=
  (setLane s n _).trans (requestCall _ n _)

theorem recordDone (s : State) (n : Fin 4) : LaneFrame n s (s.recordDone n) := by
  unfold State.recordDone
  dsimp only
  split
  · split
    · exact endStep s n
    · exact takeSend s n _ _ _
  · split
    · exact endStep s n
    · exact takeFetch s n _ _ _
  · exact endStep s n

theorem commitResolved (s : State) (n : Fin 4) (e : HoldEntry) : LaneFrame n s (s.commitResolved n e) := by
  unfold State.commitResolved
  dsimp only
  split
  · exact (setLane s n _).trans (enterFaulted _ n)
  · exact (setLane s n _).trans (recordDone _ n)

theorem carryOut (s : State) (n : Fin 4) (step : Step) : LaneFrame n s (s.carryOut n step) := by
  cases step with
  | send c sel => exact (setLane s n _).trans (takeSend _ n _ _ _)
  | fetch x sel => exact (setLane s n _).trans (takeFetch _ n _ _ _)
  | inline node words => exact requestCall s n _
  | pulse b =>
    cases b
    · exact (setLane s n _).trans (endStep _ n)
    · exact ((setLane s n _).trans (raise n _ _)).trans (endStep _ n)
  | wait d => exact setLane s n _
  | waitTrigger =>
    simp only [State.carryOut]
    split
    · exact (setLane s n _).trans (endStep _ n)
    · exact setLane s n _
  | jump t => exact nextStep s n _
  | finish => exact endCycle s n

theorem fetchStep (s : State) (n : Fin 4) : LaneFrame n s (s.fetchStep n) := by
  unfold State.fetchStep
  dsimp only
  split
  · exact (setLane s n _).trans (carryOut _ n _)
  · exact (setLane s n _).trans (structuralFault _ n _ _)

theorem callHandled (s : State) (n : Fin 4) (o : CallOutcome) : LaneFrame n s (s.callHandled n o) := by
  unfold State.callHandled
  split
  · exact enterFaulted s n
  · exact recordDone s n

theorem endCall (s : State) (n : Fin 4) (c : Call) (o : CallOutcome) (st : Option (BitVec 6)) :
    LaneFrame n s (s.endCall n c o st) := by
  unfold State.endCall
  dsimp only
  split
  · exact setLane s n _
  · split
    · exact ((setLane s n _).trans (addChanged n _ _ _)).trans (callHandled _ n _)
    · exact (setLane s n _).trans (callHandled _ n _)
  · exact (setLane s n _).trans (callHandled _ n _)

theorem retryHeld (s : State) (n : Fin 4) : LaneFrame n s (s.retryHeld n) := by
  unfold State.retryHeld
  dsimp only
  split
  · exact setLane s n _
  · exact refl n s

theorem quietLane (s : State) (n : Fin 4) : LaneFrame n s (s.quietLane n) := by
  unfold State.quietLane
  dsimp only
  split
  · exact enterStopped s n true
  · split <;> first | exact enterStopped s n true | exact setLane s n _
  · split <;> first | exact enterStopped s n true | exact setLane s n _
  · exact refl n s
  · exact refl n s

theorem owe (s : State) (n : Fin 4) : LaneFrame n s (s.owe n) := (setLane s n _).trans (raise n _ _)

theorem edgeAtLane (s : State) (n : Fin 4) : LaneFrame n s (s.edgeAtLane n) := by
  unfold State.edgeAtLane
  dsimp only
  split <;> first
    | exact startCycle s n
    | exact owe s n
    | exact setLane s n _
    | exact refl n s
    | (split
       · exact endStep s n
       · exact setLane s n _)

theorem periodTick (s : State) (n : Fin 4) : LaneFrame n s (s.periodTick n) := by
  unfold State.periodTick
  dsimp only
  split
  · exact refl n s
  · split
    · exact (setLane s n _).trans (startCycle _ n)
    · exact (setLane s n _).trans (owe _ n)
    · exact (setLane s n _).trans (owe _ n)
    · exact refl n s
    · exact refl n s

theorem waitDelayExpiry (s : State) (n : Fin 4) : LaneFrame n s (s.waitDelayExpiry n) := by
  unfold State.waitDelayExpiry
  dsimp only
  split
  · exact (setLane s n _).trans (endStep _ n)
  · exact refl n s

theorem pulseRunOut (s : State) (n : Fin 4) : LaneFrame n s (s.pulseRunOut n) := setLane s n _

theorem callBegin (s : State) (n : Fin 4) : LaneFrame n s (s.callBegin n) := by
  unfold State.callBegin
  dsimp only
  split
  · exact setLane s n _
  · exact refl n s

theorem getAccepted (s : State) (n : Fin 4) (c : Call) (w : Word) : LaneFrame n s (s.getAccepted n c w) := by
  unfold State.getAccepted
  dsimp only
  split
  · exact endCall s n _ _ _
  · exact setLane s n _

theorem replyReceived (s : State) (n : Fin 4) (w : Word) (p : Bool) : LaneFrame n s (s.replyReceived n w p) := by
  unfold State.replyReceived
  dsimp only
  split
  · split
    · split
      · exact endCall s n _ _ _
      · exact endCall s n _ _ _
      · split
        · exact getAccepted s n _ _
        · exact endCall s n _ _ _
    · exact refl n s
  · exact refl n s

theorem dataWordReceived (s : State) (n : Fin 4) (w : Word) (p : Bool) : LaneFrame n s (s.dataWordReceived n w p) := by
  unfold State.dataWordReceived
  dsimp only
  split
  · split
    · split
      · exact (setLane s n _).trans (endCall _ n _ _ _)
      · exact setLane s n _
    · exact refl n s
  · exact refl n s

theorem replyWaitTimeout (s : State) (n : Fin 4) : LaneFrame n s (s.replyWaitTimeout n) := by
  unfold State.replyWaitTimeout
  dsimp only
  split
  · split
    · exact endCall s n _ _ _
    · exact refl n s
  · exact refl n s

theorem dataWaitTimeout (s : State) (n : Fin 4) : LaneFrame n s (s.dataWaitTimeout n) := by
  unfold State.dataWaitTimeout
  dsimp only
  split
  · exact endCall s n _ _ _
  · exact refl n s

theorem broadcastTailEnd (s : State) (n : Fin 4) : LaneFrame n s (s.broadcastTailEnd n) := by
  unfold State.broadcastTailEnd
  dsimp only
  split
  · split
    · exact endCall s n _ _ _
    · exact refl n s
  · exact refl n s

theorem abortMarkEnd (s : State) (n : Fin 4) : LaneFrame n s (s.abortMarkEnd n) := by
  unfold State.abortMarkEnd
  dsimp only
  split
  · exact setLane s n _
  · exact refl n s

variable {n : Fin 4} {s t : State}

/-- The fields that no operation on a lane touches. -/
theorem fields (h : LaneFrame n s t) :
    t.mem = s.mem ∧ t.port = s.port ∧ t.table = s.table ∧ t.locks = s.locks ∧ t.slots = s.slots ∧ t.engine = s.engine
    ∧ t.mode = s.mode ∧ t.arbiter = s.arbiter ∧ t.status = s.status ∧ t.sweep = s.sweep ∧ t.settings = s.settings := by
  rw [h.1]; simp

theorem mem (h : LaneFrame n s t) : t.mem = s.mem := by rw [h.1]

theorem table (h : LaneFrame n s t) : t.table = s.table := by rw [h.1]

theorem locks (h : LaneFrame n s t) : t.locks = s.locks := by rw [h.1]

theorem engine (h : LaneFrame n s t) : t.engine = s.engine := by rw [h.1]

theorem port (h : LaneFrame n s t) : t.port = s.port := by rw [h.1]

theorem arbiter (h : LaneFrame n s t) : t.arbiter = s.arbiter := by rw [h.1]

theorem window (h : LaneFrame n s t) (w : Fin 16) : t.window w = s.window w := by
  simp only [State.window, h.table]

end LaneFrame

/-! ### Marked status words -/

/-- A marked word is stale (R133, R150, R151). -/
theorem State.stale_of_marked (s : State) (i : Nat) (h : s.marked i = true) : s.stale i = true := by
  simp [State.stale, State.forced, h]

/-- A word other than the result and guard address words is stale by R171 alone. -/
theorem State.stale_of_no_mark (s : State) (i : Nat) (h1 : i ≠ 1) (h2 : i ≠ 2) (h6 : i ≠ 6) (h7 : i ≠ 7) :
    s.stale i = ((s.statusSlot i).forced || s.statusValue i != (s.statusSlot i).written) := by
  have hm : s.marked i = false := by
    unfold State.marked
    split <;> first | contradiction | rfl
  rw [State.stale, State.forced, hm, Bool.or_false]

/-- An answer that differs from the result before it leaves both result words stale (R150). -/
theorem State.setResult_stale (s : State) (code : Byte) (o : CommandOutcome) (d : Word)
    (h : s.result ≠ { code := code, outcome := o, detail := d }) :
    (s.setResult code o d).stale 1 = true ∧ (s.setResult code o d).stale 2 = true :=
  ⟨State.stale_of_marked _ 1 (by simp [State.marked, h]), State.stale_of_marked _ 2 (by simp [State.marked, h])⟩

/-- A blocked write leaves both guard address words stale (R133). -/
theorem State.guardHit_stale (s : State) (a : Addr) : (s.guardHit a).stale 6 = true ∧ (s.guardHit a).stale 7 = true :=
  ⟨State.stale_of_marked _ 6 rfl, State.stale_of_marked _ 7 rfl⟩

/-- The EXECUTING and the final result leave both result words stale (R151). -/
theorem State.setLongResult_stale (s : State) (code : Byte) (o : CommandOutcome) (d : Word) :
    (s.setLongResult code o d).stale 1 = true ∧ (s.setLongResult code o d).stale 2 = true :=
  ⟨State.stale_of_marked _ 1 rfl, State.stale_of_marked _ 2 rfl⟩

/-! ### Finishing a long command -/

/-- t differs from s at most in the command engine, the window table, the locks, the changed sets and the pending set. -/
def EngineFrame (s t : State) : Prop :=
  t = { s with engine := t.engine, result := t.result, resultMarked := t.resultMarked,
               detailMarked := t.detailMarked, table := t.table, locks := t.locks, changed := t.changed,
               events := t.events }

theorem EngineFrame.refl (s : State) : EngineFrame s s := rfl

theorem EngineFrame.trans {s t u : State} (h : EngineFrame s t) (k : EngineFrame t u) : EngineFrame s u := by
  unfold EngineFrame at h k ⊢
  rw [k, h]

theorem EngineFrame.finishLong (s : State) (code : Byte) (o : CommandOutcome) (d : Word) :
    EngineFrame s (s.finishLong code o d) := rfl

theorem EngineFrame.installTable (s : State) (t : Sixteen WindowEntry) : EngineFrame s (s.installTable t) := by
  unfold State.installTable
  split <;> rfl

theorem EngineFrame.settle (s : State) : EngineFrame s s.settle := by
  unfold State.settle
  split
  · split
    · exact finishLong s _ _ _
    · exact refl s
  · split
    · exact finishLong s _ _ _
    · exact refl s
  · split
    · exact (installTable s _).trans (finishLong _ _ _ _)
    · exact refl s
  · split
    · exact finishLong s _ _ _
    · exact refl s
  all_goals exact refl s

theorem EngineFrame.lane {s t : State} (h : EngineFrame s t) (n : Fin 4) : t.lane n = s.lane n := by
  unfold EngineFrame at h
  rw [h]
  rfl

theorem EngineFrame.mem {s t : State} (h : EngineFrame s t) : t.mem = s.mem := by
  unfold EngineFrame at h
  rw [h]

/-! ### Accesses that the arbiter can grant at once -/

/-- With no other access waiting, an access that the arbiter can grant is granted as the state stands. -/
theorem State.giveAccess_grantable (s : State) (a : Access) (hu : s.upstream = none) (hg : s.accessGrantable = true) :
    s.giveAccess a = (s.grantAccess a).settle := by
  simp [State.giveAccess, State.serveWaiting, State.serve, hu, hg]

theorem State.giveCommand_grantable (s : State) (code arg : Byte) (hu : s.upstream = none) (hg : s.accessGrantable = true) :
    s.giveCommand code arg = (s.grantAccess (s.commandAccess code arg)).settle :=
  State.giveAccess_grantable s _ hu hg

/-! ### Grants come at a free port -/

/-- A claim that the arbiter would grant finds the port free. -/
theorem State.port_of_grantable (s : State) (src : Source) (h : s.grantable = some src) : s.port = none := by
  unfold State.grantable at h
  split at h
  · rename_i hc
    simp only [Bool.and_eq_true, Option.isNone_iff_eq_none] at hc
    exact hc.1
  · cases h

theorem State.atGrant_free (s : State) (h : s.port = none) : s.atGrant = s := by
  unfold State.atGrant
  rw [show (s.port.filter fun b => !b.user.endsItself) = s.port by rw [h]; rfl]

theorem State.atGrant_grantable (s : State) (src : Source) (h : s.grantable = some src) : s.atGrant = s :=
  s.atGrant_free (s.port_of_grantable src h)

/-- A step fetch or a status write on the port has ended by the next grant (log entry 7). -/
theorem State.atGrant_ended (s : State) (b : Burst) (hp : s.port = some b) (hb : b.user.endsItself = true) :
    s.atGrant = { s with port := none } := by
  simp [State.atGrant, hp, hb]

/-- The offset of the control block base itself is 0. -/
theorem State.blockOffset_base (s : State) : s.blockOffset s.base = some 0 := by
  simp [State.blockOffset]

end Sys2Proof.Machine
end

