-- ==== Sys2Proof/Laws/Memory.lean ====
section
/-! SUPPORT. Memory: a write keeps the canonical form, and what a read returns after a write. -/

namespace Sys2Proof.Machine.Memory

/-! ### The canonical form -/

theorem wfFrom_cons (lo a : Nat) (b : Byte) (m : List Host.Cell) :
    wfFrom lo ((a, b) :: m) = true ↔ lo ≤ a ∧ a < keys ∧ b ≠ Config.unlistedByte ∧ wfFrom (a + 1) m = true := by
  simp [wfFrom, and_assoc]

/-- A lower bound may be lowered. -/
theorem wfFrom_mono (lo lo' : Nat) (m : List Host.Cell) (h : lo' ≤ lo) (hm : wfFrom lo m = true) : wfFrom lo' m = true := by
  cases m with
  | nil => rfl
  | cons c rest =>
    obtain ⟨a, b⟩ := c
    rw [wfFrom_cons] at hm ⊢
    exact ⟨Nat.le_trans h hm.1, hm.2⟩

theorem wfFrom_writeByte (lo : Nat) (m : List Host.Cell) (k : Nat) (v : Byte) (hk : k < keys) (hlo : lo ≤ k)
    (hm : wfFrom lo m = true) : wfFrom lo (writeByte m k v) = true := by
  induction m generalizing lo with
  | nil =>
    simp only [writeByte]
    split
    · rfl
    · rename_i h
      rw [wfFrom_cons]
      exact ⟨hlo, hk, h, rfl⟩
  | cons c rest ih =>
    obtain ⟨a, b⟩ := c
    have hm' := hm
    rw [wfFrom_cons] at hm'
    obtain ⟨h1, h2, h3, h4⟩ := hm'
    simp only [writeByte]
    split
    · rename_i hka
      split
      · exact hm
      · rename_i hv
        rw [wfFrom_cons, wfFrom_cons]
        exact ⟨hlo, hk, hv, hka, h2, h3, h4⟩
    · split
      · rename_i hka
        subst hka
        split
        · exact wfFrom_mono _ _ _ (Nat.le_succ_of_le h1) h4
        · rename_i hv
          rw [wfFrom_cons]
          exact ⟨hlo, hk, hv, h4⟩
      · rw [wfFrom_cons]
        exact ⟨h1, h2, h3, ih (a + 1) (by omega) h4⟩

theorem wf_writeByte (m : List Host.Cell) (k : Nat) (v : Byte) (hk : k < keys) (hm : wf m = true) :
    wf (writeByte m k v) = true := wfFrom_writeByte 0 m k v hk (Nat.zero_le k) hm

theorem lowerKey_lt (a : Addr) : lowerKey a < keys := by
  have := a.isLt
  simp only [lowerKey, keys]
  omega

theorem upperKey_lt (a : Addr) : upperKey a < keys := by
  have := a.isLt
  simp only [upperKey, keys]
  omega

/-- Every write of the model keeps the canonical form. -/
theorem wf_writeSel (m : List Host.Cell) (a : Addr) (w : Word) (sel : ByteSel) (hm : wf m = true) :
    wf (writeSel m a w sel) = true := by
  cases sel <;> simp only [writeSel, selLower, selUpper, if_true, Bool.false_eq_true, if_false]
  · exact wf_writeByte _ _ _ (upperKey_lt a) (wf_writeByte _ _ _ (lowerKey_lt a) hm)
  · exact wf_writeByte _ _ _ (lowerKey_lt a) hm
  · exact wf_writeByte _ _ _ (upperKey_lt a) hm

theorem wf_writeWord (m : List Host.Cell) (a : Addr) (w : Word) (hm : wf m = true) : wf (writeWord m a w) = true :=
  wf_writeSel m a w .both hm

theorem wf_writeAll (writes : List (Addr × Word)) (m : List Host.Cell) (hm : wf m = true) :
    wf (writeAll m writes) = true := by
  induction writes generalizing m with
  | nil => exact hm
  | cons p rest ih => exact ih _ (wf_writeWord m p.1 p.2 hm)

/-! ### Reading after writing -/

theorem readByte_below (lo : Nat) (m : List Host.Cell) (j : Nat) (hj : j < lo) (hm : wfFrom lo m = true) :
    readByte m j = Config.unlistedByte := by
  cases m with
  | nil => rfl
  | cons c rest =>
    obtain ⟨a, b⟩ := c
    rw [wfFrom_cons] at hm
    have h1 : j ≠ a := by omega
    have h2 : j < a := by omega
    simp [readByte, h1, h2]

/-- A byte reads as last written. -/
theorem readByte_writeByte_same (lo : Nat) (m : List Host.Cell) (k : Nat) (v : Byte) (hm : wfFrom lo m = true) :
    readByte (writeByte m k v) k = v := by
  induction m generalizing lo with
  | nil =>
    simp only [writeByte]
    split
    · rename_i h; subst h; rfl
    · simp [readByte]
  | cons c rest ih =>
    obtain ⟨a, b⟩ := c
    rw [wfFrom_cons] at hm
    simp only [writeByte]
    split
    · rename_i hka
      split
      · rename_i hv
        have : k ≠ a := by omega
        simp [readByte, this, hka, hv]
      · simp [readByte]
    · split
      · rename_i hka
        subst hka
        split
        · rename_i hv
          rw [hv]
          exact readByte_below (k + 1) rest k (Nat.lt_succ_self k) hm.2.2.2
        · simp [readByte]
      · rename_i h1 h2
        simp only [readByte, h2, h1, if_false]
        exact ih (a + 1) hm.2.2.2

/-- Every other byte reads as before. -/
theorem readByte_writeByte_other (lo : Nat) (m : List Host.Cell) (k j : Nat) (v : Byte) (h : j ≠ k)
    (hm : wfFrom lo m = true) : readByte (writeByte m k v) j = readByte m j := by
  induction m generalizing lo with
  | nil =>
    simp only [writeByte]
    split
    · rfl
    · simp [readByte, h]
  | cons c rest ih =>
    obtain ⟨a, b⟩ := c
    rw [wfFrom_cons] at hm
    simp only [writeByte]
    split
    · rename_i hka
      split
      · rfl
      · simp only [readByte, h, if_false]
        split
        · rename_i hjk
          have h1 : j ≠ a := by omega
          have h2 : j < a := by omega
          simp [h1, h2]
        · rfl
    · split
      · rename_i hka
        subst hka
        split
        · rename_i hv
          simp only [readByte, h, if_false]
          split
          · rename_i hjk
            exact readByte_below (k + 1) rest j (by omega) hm.2.2.2
          · rfl
        · simp [readByte, h]
      · simp only [readByte]
        split
        · rfl
        · split
          · rfl
          · exact ih (a + 1) hm.2.2.2

theorem keys_ne (a b : Addr) (h : a ≠ b) : lowerKey a ≠ lowerKey b ∧ upperKey a ≠ upperKey b := by
  have : a.toNat ≠ b.toNat := fun e => h (BitVec.eq_of_toNat_eq e)
  simp only [lowerKey, upperKey]
  omega

theorem lower_ne_upper (a b : Addr) : lowerKey a ≠ upperKey b := by
  simp only [lowerKey, upperKey]
  omega

/-- A write leaves every other word as it was. -/
theorem readWord_writeSel_other (m : List Host.Cell) (a b : Addr) (w : Word) (sel : ByteSel) (h : b ≠ a)
    (hm : wf m = true) : readWord (writeSel m a w sel) b = readWord m b := by
  have hl := (keys_ne b a h).1
  have hu := (keys_ne b a h).2
  have h1 := lower_ne_upper b a
  have h2 := (lower_ne_upper a b).symm
  have hm1 := wf_writeByte m (lowerKey a) (lowerByte w) (lowerKey_lt a) hm
  cases sel <;> simp only [writeSel, selLower, selUpper, if_true, Bool.false_eq_true, if_false, readWord]
  · rw [readByte_writeByte_other 0 _ _ _ _ hu hm1, readByte_writeByte_other 0 _ _ _ _ h1 hm1,
      readByte_writeByte_other 0 _ _ _ _ h2 hm, readByte_writeByte_other 0 _ _ _ _ hl hm]
  · rw [readByte_writeByte_other 0 _ _ _ _ h2 hm, readByte_writeByte_other 0 _ _ _ _ hl hm]
  · rw [readByte_writeByte_other 0 _ _ _ _ hu hm, readByte_writeByte_other 0 _ _ _ _ h1 hm]

theorem joinBytes_split (w : Word) : joinBytes (upperByte w) (lowerByte w) = w := by
  simp only [joinBytes, upperByte, lowerByte]
  ext i hi
  rw [BitVec.getElem_append]
  by_cases h : i < 8
  · simp [h, BitVec.getElem_extractLsb', BitVec.getLsbD_eq_getElem hi]
  · have h8 : 8 + (i - 8) = i := by omega
    simp [h, BitVec.getElem_extractLsb', h8, BitVec.getLsbD_eq_getElem hi]

theorem upperByte_join (hi lo : Byte) : upperByte (joinBytes hi lo) = hi := by
  simp only [joinBytes, upperByte]
  ext i hi'
  rw [BitVec.getElem_extractLsb', BitVec.getLsbD_append]
  simp [BitVec.getLsbD_eq_getElem hi']

theorem lowerByte_join (hi lo : Byte) : lowerByte (joinBytes hi lo) = lo := by
  simp only [joinBytes, lowerByte]
  ext i hi'
  rw [BitVec.getElem_extractLsb', BitVec.getLsbD_append]
  simp [show i < 8 from hi']

/-- A word written whole reads back. -/
theorem readWord_writeWord_same (m : List Host.Cell) (a : Addr) (w : Word) (hm : wf m = true) :
    readWord (writeWord m a w) a = w := by
  have hm1 := wf_writeByte m (lowerKey a) (lowerByte w) (lowerKey_lt a) hm
  simp only [writeWord, writeSel, selLower, selUpper, if_true, readWord]
  rw [readByte_writeByte_same 0 _ _ _ hm1, readByte_writeByte_other 0 _ _ _ _ (lower_ne_upper a a) hm1,
    readByte_writeByte_same 0 _ _ _ hm]
  exact joinBytes_split w

/-- A write of the lower byte leaves the upper byte as it was. -/
theorem readWord_writeLower_same (m : List Host.Cell) (a : Addr) (w : Word) (hm : wf m = true) :
    readWord (writeSel m a w .lower) a = joinBytes (upperByte (readWord m a)) (lowerByte w) := by
  simp only [writeSel, selLower, selUpper, if_true, Bool.false_eq_true, if_false, readWord, upperByte_join]
  rw [readByte_writeByte_same 0 _ _ _ hm, readByte_writeByte_other 0 _ _ _ _ (lower_ne_upper a a).symm hm]

/-- A write of the upper byte leaves the lower byte as it was. -/
theorem readWord_writeUpper_same (m : List Host.Cell) (a : Addr) (w : Word) (hm : wf m = true) :
    readWord (writeSel m a w .upper) a = joinBytes (upperByte w) (lowerByte (readWord m a)) := by
  simp only [writeSel, selLower, selUpper, if_true, Bool.false_eq_true, if_false, readWord, lowerByte_join]
  rw [readByte_writeByte_same 0 _ _ _ hm, readByte_writeByte_other 0 _ _ _ _ (lower_ne_upper a a) hm]

/-- The words of a burst leave every word they do not name as it was. -/
theorem readWord_writeAll_other (writes : List (Addr × Word)) (m : List Host.Cell) (b : Addr)
    (h : ∀ p ∈ writes, p.1 ≠ b) (hm : wf m = true) : readWord (writeAll m writes) b = readWord m b := by
  induction writes generalizing m with
  | nil => rfl
  | cons p rest ih =>
    have hp : b ≠ p.1 := fun e => h p (List.mem_cons_self ..) e.symm
    have := ih (writeWord m p.1 p.2) (fun q hq => h q (List.mem_cons_of_mem _ hq)) (wf_writeWord m p.1 p.2 hm)
    rw [show writeAll m (p :: rest) = writeAll (writeWord m p.1 p.2) rest from rfl, this]
    exact readWord_writeSel_other m p.1 b p.2 .both hp hm

/-- Memory at reset, with nothing listed, is in canonical form. -/
theorem wf_reset : wf State.reset.mem = true := rfl

end Sys2Proof.Machine.Memory
end

