-- ==== Sys2Proof/Laws/Access.lean ====
section
/-! SUPPORT. What the grant of an access comes to when the part is ready: the control block is neither mapped nor, at the words
that command and acknowledge, guarded. -/

namespace Sys2Proof.Machine

theorem State.ready_iff (s : State) :
    s.ready = true ↔ s.phase = .running ∧ s.upstream = none ∧ s.accessGrantable = true := by
  simp [State.ready, and_assoc]

/-- With no finish reached, there is nothing to settle. -/
theorem State.settle_of_not_finishes (s : State) (h : s.finishes = false) : s.settle = s := by
  unfold State.settle
  unfold State.finishes at h
  split at h <;> simp_all

theorem State.finishes_idle (s : State) (h : s.engine = .idle) : s.finishes = false := by
  simp [State.finishes, h]

/-! ### Runs of words -/

theorem runsOverlap_false (a la b lb : Nat) : runsOverlap a la b lb = false ↔ b + lb ≤ a ∨ a + la ≤ b := by
  simp only [runsOverlap, Bool.and_eq_false_iff, decide_eq_false_iff_not]
  omega

theorem WindowEntry.holds_iff (e : WindowEntry) (a : Addr) :
    e.holds a = true ↔ e.used = true ∧ e.base.toNat ≤ a.toNat ∧ a.toNat < e.base.toNat + e.length := by
  simp [WindowEntry.holds, and_assoc]

theorem Lane.inProgramArea_iff (l : Lane) (a : Addr) :
    l.inProgramArea a = true ↔ ∃ p ∈ l.settings.page, pageBase p ≤ a.toNat ∧ a.toNat < pageBase p + 256 := by
  unfold Lane.inProgramArea
  cases h : l.settings.page <;> simp

/-- An address that the control block holds lies between its ends. -/
theorem State.blockOffset_eq (s : State) (a : Addr) (off : Nat) :
    s.blockOffset a = some off ↔ s.base.toNat ≤ a.toNat ∧ a.toNat < s.base.toNat + 256 ∧ off = a.toNat - s.base.toNat := by
  unfold State.blockOffset
  split
  · rename_i h
    simp only [Bool.and_eq_true, decide_eq_true_eq] at h
    simp only [Option.some.injEq]
    constructor
    · intro e; exact ⟨h.1, h.2, e.symm⟩
    · intro e; exact e.2.2.symm
  · rename_i h
    simp only [Bool.and_eq_true, decide_eq_true_eq, not_and, not_lt] at h
    simp only [reduceCtorEq, false_iff, not_and]
    intro h1 h2
    have := h h1
    omega

/-- The base is one of four, each with its 256 words inside memory (R143). -/
theorem State.base_cases (s : State) :
    s.base = 0x00000 ∨ s.base = 0x3FF00 ∨ s.base = 0x7FF00 ∨ s.base = 0xFFF00 := by
  unfold State.base baseOfStrap
  split
  · exact Or.inl rfl
  · split
    · exact Or.inr (Or.inl rfl)
    · split
      · exact Or.inr (Or.inr (Or.inl rfl))
      · exact Or.inr (Or.inr (Or.inr rfl))

theorem State.base_le (s : State) : s.base.toNat ≤ 0xFFF00 := by
  rcases s.base_cases with h | h | h | h <;> rw [h] <;> decide

/-- The address of an offset of the control block. -/
theorem State.blockAddr_toNat (s : State) (off : Nat) (h : off < 256) :
    (s.blockAddr off).toNat = s.base.toNat + off := by
  have := s.base_le
  simp only [State.blockAddr, BitVec.toNat_add, BitVec.toNat_ofNat]
  omega

theorem State.blockOffset_blockAddr (s : State) (off : Nat) (h : off < 256) :
    s.blockOffset (s.blockAddr off) = some off := by
  rw [State.blockOffset_eq, s.blockAddr_toNat off h]
  omega

/-! ### The control block under the area laws -/

/-- No word of the control block is mapped (R4). -/
theorem State.place_block (s : State) (ha : AreaLaws s) (a : Addr) (off : Nat) (h : s.blockOffset a = some off) :
    s.place a = none := by
  unfold State.place
  split
  · rw [Option.map_eq_none_iff, List.find?_eq_none]
    intro w _ hw
    rw [WindowEntry.holds_iff] at hw
    rw [State.blockOffset_eq] at h
    have hd := (ha.1 w hw.1).2.1
    rw [runsOverlap_false] at hd
    have e : s.window w = Sixteen.get s.table w := rfl
    rw [e] at hw
    omega
  · rfl

/-- No word of the control block lies in a program area (R161). -/
theorem State.inProgramArea_block (s : State) (ha : AreaLaws s) (a : Addr) (off : Nat) (h : s.blockOffset a = some off)
    (n : Fin 4) : (s.lane n).inProgramArea a = false := by
  rw [Bool.eq_false_iff]
  intro hc
  rw [Lane.inProgramArea_iff] at hc
  obtain ⟨p, hp, h1, h2⟩ := hc
  rw [State.blockOffset_eq] at h
  have hd := ha.2.1.1 n p hp
  rw [runsOverlap_false] at hd
  omega

/-- A word of the control block is guarded as its offset says (R133). -/
theorem State.guarded_block (s : State) (ha : AreaLaws s) (hp : s.phase = .running) (a : Addr) (off : Nat)
    (h : s.blockOffset a = some off) :
    s.guarded a = (statusAreaOffset off || (s.frozen && imageOffset off)) := by
  have h1 : (laneList.any fun n => (s.lane n).inProgramArea a && ((s.lane n).active || s.frozen)) = false := by
    rw [List.any_eq_false]
    intro n _
    simp [s.inProgramArea_block ha a off h n]
  simp [State.guarded, hp, h, h1]

/-! ### The grant -/

/-- A write at its grant, with the part out of reset and the address not guarded. -/
theorem State.grantAccess_write (s : State) (a : Access) (hw : a.write = true) (hp : s.phase = .running)
    (hg : s.guarded a.addr = false) : s.grantAccess a = (s.written a).snoopWrite a := by
  have h1 : ({ s.countAccess with upstream := none } : State).guarded a.addr = false := hg
  simp only [State.grantAccess, hw, if_true, State.grantWrite, h1, Bool.false_eq_true, if_false]
  rw [if_pos (show ({ s.countAccess with upstream := none } : State).phase = .running from hp)]
  rfl

/-- A blocked write at its grant (R133). -/
theorem State.grantAccess_blocked (s : State) (a : Access) (hw : a.write = true) (hp : s.phase = .running)
    (hg : s.guarded a.addr = true) : s.grantAccess a = s.passed.guardHit a.addr := by
  have h1 : ({ s.countAccess with upstream := none } : State).guarded a.addr = true := hg
  simp only [State.grantAccess, hw, if_true, State.grantWrite, h1]
  rw [if_pos (show ({ s.countAccess with upstream := none } : State).phase = .running from hp)]
  rfl

/-- A read at its grant, with the part out of reset. -/
theorem State.grantAccess_read (s : State) (a : Access) (hw : a.write = false) (hp : s.phase = .running) :
    s.grantAccess a = (s.answeredRead a.addr a.sel).snoopRead a (Memory.readWord s.mem a.addr) := by
  simp only [State.grantAccess, hw, Bool.false_eq_true, if_false, State.grantRead]
  rw [if_pos (show ({ s.countAccess with upstream := none } : State).phase = .running from hp)]
  rfl

/-- An access that the part can take at once. -/
theorem State.giveAccess_ready (s : State) (a : Access) (h : s.ready = true) : s.giveAccess a = (s.grantAccess a).settle := by
  rw [State.ready_iff] at h
  exact s.giveAccess_grantable a h.2.1 h.2.2

/-- A command word that the part can take at once reaches the command engine with its code and argument. -/
theorem State.giveCommand_ready (s : State) (code arg : Byte) (h : s.ready = true) (ha : AreaLaws s) :
    s.giveCommand code arg
      = ((s.written (s.commandAccess code arg)).receiveCommand (joinBytes code arg)).settle := by
  have hb := s.blockOffset_base
  have hp := ((s.ready_iff).1 h).1
  have hg : s.guarded (s.commandAccess code arg).addr = false := by
    rw [show (s.commandAccess code arg).addr = s.base from rfl, s.guarded_block ha hp s.base 0 hb]
    simp [statusAreaOffset, imageOffset]
  rw [State.giveCommand, s.giveAccess_ready _ h, s.grantAccess_write _ rfl hp hg]
  have h1 : (s.written (s.commandAccess code arg)).place (s.commandAccess code arg).addr = none :=
    s.place_block ha s.base 0 hb
  have h2 : (s.written (s.commandAccess code arg)).blockOffset (s.commandAccess code arg).addr = some 0 := hb
  simp only [State.snoopWrite, h1, h2]
  rfl

/-- With the engine IDLE the command is taken. -/
theorem State.receive_idle (s : State) (code arg : Byte) (h : s.engine = .idle) :
    s.receiveCommand (joinBytes code arg) = s.takeCommand code arg := by
  simp [State.receiveCommand, h, Memory.upperByte_join, Memory.lowerByte_join]

theorem State.giveCommand_idle (s : State) (code arg : Byte) (h : s.ready = true) (ha : AreaLaws s) (he : s.engine = .idle) :
    s.giveCommand code arg = ((s.written (s.commandAccess code arg)).takeCommand code arg).settle := by
  rw [s.giveCommand_ready code arg h ha, State.receive_idle]
  exact he

end Sys2Proof.Machine
end

