-- ==== Sys2Proof/Laws/Commands.lean ====
section
/-! SUPPORT. A command word that the part can take at once, by the outcome that R149 gives it. -/

namespace Sys2Proof.Machine

/-- The state a command other than FREEZE SECOND is carried out on: the word is in memory and *armed* is clear. -/
def State.taken (s : State) (code arg : Byte) : State :=
  { s.written (s.commandAccess code arg) with armed := false }

variable (s : State) (code arg : Byte) (c : Command)

theorem State.carried_out (hr : s.ready = true) (ha : AreaLaws s) (he : s.engine = .idle) (hc : commandOf code = some c)
    (h2 : c ≠ .freezeSecond) (hm : c.available s.mode = true) (hf : (c.refusedFrozen && s.frozen) = false)
    (hb : arg.toNat < c.argBound) : s.giveCommand code arg = ((s.taken code arg).carryOutCommand c arg).settle := by
  rw [s.giveCommand_idle code arg hr ha he]
  have hm' : c.available (s.written (s.commandAccess code arg)).mode = true := hm
  have hf' : (c.refusedFrozen && (s.written (s.commandAccess code arg)).frozen) = false := hf
  simp only [State.takeCommand, hc, h2, if_false]
  rw [if_neg (by simp only [hm']; decide), if_neg (by rw [hf']; decide), if_neg (by omega)]
  rfl

/-- FREEZE SECOND keeps *armed* for its own check. -/
theorem State.freezeSecond_carried_out (hr : s.ready = true) (ha : AreaLaws s) (he : s.engine = .idle) :
    s.giveCommand 0x31 arg = ((s.written (s.commandAccess 0x31 arg)).takeFreezeSecond).settle := by
  rw [s.giveCommand_idle 0x31 arg hr ha he]
  have hc : commandOf 0x31 = some .freezeSecond := rfl
  have hlt : ¬ Command.argBound .freezeSecond ≤ arg.toNat := by
    have := arg.isLt
    simp only [Command.argBound]
    omega
  simp only [State.takeCommand, hc, if_true]
  rw [if_neg (by simp [Command.available]), if_neg (by simp [Command.refusedFrozen]), if_neg hlt]
  rfl

theorem State.not_available (hr : s.ready = true) (ha : AreaLaws s) (he : s.engine = .idle) (hc : commandOf code = some c)
    (h2 : c ≠ .freezeSecond) (hm : c.available s.mode = false) :
    s.giveCommand code arg = s.commanded code arg .notAvailable (BitVec.ofNat 16 s.mode.code) := by
  rw [s.giveCommand_idle code arg hr ha he]
  have hm' : c.available (s.written (s.commandAccess code arg)).mode = false := hm
  simp only [State.takeCommand, hc, h2, if_false]
  rw [if_pos (by simp only [hm']; decide), State.settle_idle]
  · rfl
  · exact he

theorem State.refused_frozen (hr : s.ready = true) (ha : AreaLaws s) (he : s.engine = .idle) (hc : commandOf code = some c)
    (h2 : c ≠ .freezeSecond) (hm : c.available s.mode = true) (hf : (c.refusedFrozen && s.frozen) = true) :
    s.giveCommand code arg = s.commanded code arg .frozen 0 := by
  rw [s.giveCommand_idle code arg hr ha he]
  have hm' : c.available (s.written (s.commandAccess code arg)).mode = true := hm
  have hf' : (c.refusedFrozen && (s.written (s.commandAccess code arg)).frozen) = true := hf
  simp only [State.takeCommand, hc, h2, if_false]
  rw [if_neg (by simp only [hm']; decide), if_pos hf', State.settle_idle]
  · rfl
  · exact he

theorem State.argument_out_of_range (hr : s.ready = true) (ha : AreaLaws s) (he : s.engine = .idle)
    (hc : commandOf code = some c) (h2 : c ≠ .freezeSecond) (hm : c.available s.mode = true)
    (hf : (c.refusedFrozen && s.frozen) = false) (hb : c.argBound ≤ arg.toNat) :
    s.giveCommand code arg = s.commanded code arg .range (argWord arg) := by
  rw [s.giveCommand_idle code arg hr ha he]
  have hm' : c.available (s.written (s.commandAccess code arg)).mode = true := hm
  have hf' : (c.refusedFrozen && (s.written (s.commandAccess code arg)).frozen) = false := hf
  simp only [State.takeCommand, hc, h2, if_false]
  rw [if_neg (by simp only [hm']; decide), if_neg (by rw [hf']; decide), if_pos hb, State.settle_idle]
  · rfl
  · exact he

theorem State.unknown_code (hr : s.ready = true) (ha : AreaLaws s) (he : s.engine = .idle) (hc : commandOf code = none) :
    s.giveCommand code arg = s.commanded code arg .unknown 0 := by
  rw [s.giveCommand_idle code arg hr ha he]
  simp only [State.takeCommand, hc]
  rw [State.settle_idle]
  · rfl
  · exact he

/-- The lane that an argument below 4 names. -/
theorem laneOf_eq (n : Fin 4) (h : arg.toNat = n.val) : laneOf arg = n := by
  apply Fin.ext
  simp only [laneOf]
  omega

/-- The window that an argument below 16 names. -/
theorem windowOf_eq (w : Fin 16) (h : arg.toNat = w.val) : windowOf arg = w := by
  apply Fin.ext
  simp only [windowOf]
  omega

end Sys2Proof.Machine
end

