-- ==== Sys2Proof/Laws/Lanes.lean ====
section
/-! SUPPORT. What the shared operations on one lane come to, and when they leave a long command where it is. -/

namespace Sys2Proof.Machine

/-! ### Requesting a call -/

/-- At an IDLE engine whose pause has passed the requested call begins at once (R62). -/
theorem Lane.requestCall_begins (l : Lane) (c : Call) (h1 : l.link.engine = .idle) (h2 : l.link.pause = 0) :
    l.requestCall c = { l with work := .calling, inbound := [], link := Link.begun c l.settings } := by
  simp [Lane.requestCall, Lane.beginCall, Link.canBegin, h1, h2]

/-- Otherwise the request waits (R62). -/
theorem Lane.requestCall_waits (l : Lane) (c : Call) (h : ¬ (l.link.engine = .idle ∧ l.link.pause = 0)) :
    l.requestCall c = { l with work := .calling, link := { l.link with request := some c } } := by
  simp [Lane.requestCall, Link.canBegin, h]

@[simp] theorem Lane.requestCall_state (l : Lane) (c : Call) : (l.requestCall c).state = l.state := by
  unfold Lane.requestCall; split <;> rfl
@[simp] theorem Lane.requestCall_startMode (l : Lane) (c : Call) : (l.requestCall c).startMode = l.startMode := by
  unfold Lane.requestCall; split <;> rfl
@[simp] theorem Lane.requestCall_stopAtCycleEnd (l : Lane) (c : Call) : (l.requestCall c).stopAtCycleEnd = l.stopAtCycleEnd := by
  unfold Lane.requestCall; split <;> rfl
@[simp] theorem Lane.requestCall_stopAtStepEnd (l : Lane) (c : Call) : (l.requestCall c).stopAtStepEnd = l.stopAtStepEnd := by
  unfold Lane.requestCall; split <;> rfl
@[simp] theorem Lane.requestCall_startOwed (l : Lane) (c : Call) : (l.requestCall c).startOwed = l.startOwed := by
  unfold Lane.requestCall; split <;> rfl
@[simp] theorem Lane.requestCall_triggerLatch (l : Lane) (c : Call) : (l.requestCall c).triggerLatch = l.triggerLatch := by
  unfold Lane.requestCall; split <;> rfl
@[simp] theorem Lane.requestCall_settings (l : Lane) (c : Call) : (l.requestCall c).settings = l.settings := by
  unfold Lane.requestCall; split <;> rfl
@[simp] theorem Lane.requestCall_stepIndex (l : Lane) (c : Call) : (l.requestCall c).stepIndex = l.stepIndex := by
  unfold Lane.requestCall; split <;> rfl
@[simp] theorem Lane.requestCall_stepCount (l : Lane) (c : Call) : (l.requestCall c).stepCount = l.stepCount := by
  unfold Lane.requestCall; split <;> rfl
@[simp] theorem Lane.requestCall_cycleCount (l : Lane) (c : Call) : (l.requestCall c).cycleCount = l.cycleCount := by
  unfold Lane.requestCall; split <;> rfl
@[simp] theorem Lane.requestCall_step (l : Lane) (c : Call) : (l.requestCall c).step = l.step := by
  unfold Lane.requestCall; split <;> rfl
@[simp] theorem Lane.requestCall_entry (l : Lane) (c : Call) : (l.requestCall c).entry = l.entry := by
  unfold Lane.requestCall; split <;> rfl
@[simp] theorem Lane.requestCall_position (l : Lane) (c : Call) : (l.requestCall c).position = l.position := by
  unfold Lane.requestCall; split <;> rfl
@[simp] theorem Lane.requestCall_outbound (l : Lane) (c : Call) : (l.requestCall c).outbound = l.outbound := by
  unfold Lane.requestCall; split <;> rfl
@[simp] theorem Lane.requestCall_delayTimer (l : Lane) (c : Call) : (l.requestCall c).delayTimer = l.delayTimer := by
  unfold Lane.requestCall; split <;> rfl
@[simp] theorem Lane.requestCall_periodTimer (l : Lane) (c : Call) : (l.requestCall c).periodTimer = l.periodTimer := by
  unfold Lane.requestCall; split <;> rfl
@[simp] theorem Lane.requestCall_pulseTimer (l : Lane) (c : Call) : (l.requestCall c).pulseTimer = l.pulseTimer := by
  unfold Lane.requestCall; split <;> rfl
@[simp] theorem Lane.requestCall_lastError (l : Lane) (c : Call) : (l.requestCall c).lastError = l.lastError := by
  unfold Lane.requestCall; split <;> rfl
@[simp] theorem Lane.requestCall_nodeStatus (l : Lane) (c : Call) : (l.requestCall c).nodeStatus = l.nodeStatus := by
  unfold Lane.requestCall; split <;> rfl
@[simp] theorem Lane.requestCall_currentStep (l : Lane) (c : Call) : (l.requestCall c).currentStep = l.currentStep := by
  unfold Lane.requestCall; split <;> rfl
@[simp] theorem Lane.requestCall_atRest (l : Lane) (c : Call) : (l.requestCall c).atRest = l.atRest := by
  unfold Lane.requestCall; split <;> rfl
@[simp] theorem Lane.requestCall_active (l : Lane) (c : Call) : (l.requestCall c).active = l.active := by
  unfold Lane.requestCall; split <;> rfl
@[simp] theorem Lane.requestCall_work (l : Lane) (c : Call) : (l.requestCall c).work = .calling := by
  unfold Lane.requestCall; split <;> rfl

/-! ### Nothing to finish -/

/-- Whether a long command finishes is seen from the engine, the lanes at rest, the slots and the status words alone. -/
theorem State.finishes_congr (s t : State) (h1 : t.engine = s.engine) (h2 : ∀ n, (t.lane n).atRest = (s.lane n).atRest)
    (h3 : t.slots = s.slots) (h4 : t.status = s.status) : t.finishes = s.finishes := by
  simp only [State.finishes, State.allAtRest, State.slotsEmpty, State.noneForced, h1, h2, h3, h4]

theorem State.settle_same (s t : State) (h : s.finishes = false) (h1 : t.engine = s.engine)
    (h2 : ∀ n, (t.lane n).atRest = (s.lane n).atRest) (h3 : t.slots = s.slots) (h4 : t.status = s.status) :
    t.settle = t :=
  t.settle_of_not_finishes (by rw [State.finishes_congr s t h1 h2 h3 h4, h])

theorem State.atRest_setLane (s : State) (n : Fin 4) (l : Lane) (h : l.atRest = (s.lane n).atRest) (m : Fin 4) :
    ((s.setLane n l).lane m).atRest = (s.lane m).atRest := by
  rw [State.lane_setLane]
  split
  · rename_i e
    subst e
    exact h
  · rfl

/-- A change of lane n that leaves it at rest, or not, as it was finishes nothing. -/
theorem State.settle_setLane (s : State) (n : Fin 4) (l : Lane) (h : s.finishes = false) (hl : l.atRest = (s.lane n).atRest) :
    (s.setLane n l).settle = s.setLane n l :=
  State.settle_same s _ h rfl (s.atRest_setLane n l hl) rfl rfl

/-! ### Events of a lane -/

theorem Event.late_bit (n : Fin 4) : (Event.late n).code - 1 = 6 + n.val := by
  simp only [Event.code]
  omega

theorem Event.done_bit (n : Fin 4) : (Event.done n).code - 1 = 10 + n.val := by
  simp only [Event.code]
  omega

theorem Event.mark_bit (n : Fin 4) : (Event.mark n).code - 1 = 14 + n.val := by
  simp only [Event.code]
  omega

theorem Event.fault_bit (n : Fin 4) : (Event.fault n).code - 1 = n.val := by
  simp only [Event.code]
  omega

theorem State.enterStopped_done (s : State) (n : Fin 4) : s.enterStopped n true = { s with
    lanes := s.lanes.set n ((s.lane n).restAs .stopped), events := s.events ||| BitVec.twoPow 19 (10 + n.val) } := by
  simp only [State.enterStopped, if_true, State.raise, Event.done_bit]
  rfl

theorem State.enterFaulted_eq (s : State) (n : Fin 4) : s.enterFaulted n = { s with
    lanes := s.lanes.set n ((s.lane n).restAs .faulted), events := s.events ||| BitVec.twoPow 19 n.val } := by
  simp only [State.enterFaulted, State.raise, Event.fault_bit]
  rfl

/-- A structural fault (R86). -/
theorem State.structuralFault_eq (s : State) (n : Fin 4) (c : ErrorCode) (i : Fin 64) : s.structuralFault n c i = { s with
    lanes := s.lanes.set n { (s.lane n).restAs .faulted with lastError := { code := c, step := i, node := 0xFF } }
    events := s.events ||| BitVec.twoPow 19 n.val } := by
  unfold State.structuralFault
  rw [State.enterFaulted_eq, State.lane_setLane_same]
  simp [State.setLane, Lane.restAs]

/-! ### The end of a step (R82) -/

theorem State.placeFetch_eq (s : State) (n : Fin 4) (i : Fin 64) (h : (s.lane n).stepCount < 256) :
    s.placeFetch n i = s.setLane n ((s.lane n).fetching i) := by
  unfold State.placeFetch
  dsimp only
  rw [if_pos (show (s.lane n).stepCount < Config.stepBudget from h)]
  rfl

/-- A step ends with no stop pending, an index to go to and budget left: the next step's fetch is claimed. -/
theorem State.nextStep_eq (s : State) (n : Fin 4) (i : Fin 64) (hs : (s.lane n).stopAtStepEnd = false)
    (h : (s.lane n).stepCount < 256) : s.nextStep n i.val = s.setLane n ((s.lane n).fetching i) := by
  unfold State.nextStep
  rw [if_neg (by rw [hs]; decide), dif_pos i.isLt, s.placeFetch_eq n _ h]

theorem State.endStep_eq (s : State) (n : Fin 4) (i : Fin 64) (hi : i.val = (s.lane n).stepIndex.val + 1)
    (hs : (s.lane n).stopAtStepEnd = false) (h : (s.lane n).stepCount < 256) :
    s.endStep n = s.setLane n ((s.lane n).fetching i) := by
  unfold State.endStep
  rw [← hi, s.nextStep_eq n i hs h]

theorem State.endStep_stops (s : State) (n : Fin 4) (hs : (s.lane n).stopAtStepEnd = true) :
    s.endStep n = s.enterStopped n true := by
  unfold State.endStep State.nextStep
  rw [if_pos hs]

/-- After a step at index 63 there is no next index: BAD_STEP (R82). -/
theorem State.endStep_runs_off (s : State) (n : Fin 4) (hi : (s.lane n).stepIndex = 63)
    (hs : (s.lane n).stopAtStepEnd = false) : s.endStep n = { s with
      lanes := s.lanes.set n { (s.lane n).restAs .faulted with lastError := { code := .badStep, step := 63, node := 0xFF } }
      events := s.events ||| BitVec.twoPow 19 n.val } := by
  unfold State.endStep State.nextStep
  rw [if_neg (by rw [hs]; decide), dif_neg (by rw [hi]; decide)]
  rw [State.structuralFault_eq]

/-- With the budget spent the lane needs a step and faults RUNAWAY (R81). -/
theorem State.nextStep_spent (s : State) (n : Fin 4) (i : Fin 64) (hs : (s.lane n).stopAtStepEnd = false)
    (h : 256 ≤ (s.lane n).stepCount) : s.nextStep n i.val = { s with
      lanes := s.lanes.set n { (s.lane n).restAs .faulted with
        stepIndex := i, lastError := { code := .runaway, step := i, node := 0xFF } }
      events := s.events ||| BitVec.twoPow 19 n.val } := by
  unfold State.nextStep
  rw [if_neg (by rw [hs]; decide), dif_pos i.isLt]
  unfold State.placeFetch
  dsimp only
  rw [if_neg (by simp only [Config.stepBudget]; omega)]
  rw [State.structuralFault_eq, State.lane_setLane_same]
  simp [State.setLane, Lane.restAs]

theorem State.endStep_spent (s : State) (n : Fin 4) (i : Fin 64) (hi : i.val = (s.lane n).stepIndex.val + 1)
    (hs : (s.lane n).stopAtStepEnd = false) (h : 256 ≤ (s.lane n).stepCount) : s.endStep n = { s with
      lanes := s.lanes.set n { (s.lane n).restAs .faulted with
        stepIndex := i, lastError := { code := .runaway, step := i, node := 0xFF } }
      events := s.events ||| BitVec.twoPow 19 n.val } := by
  unfold State.endStep
  rw [← hi, s.nextStep_spent n i hs h]

/-- The end of a step does not look at the port. -/
theorem State.endStep_holdPort (s : State) (n : Fin 4) (u : BurstUser) (k : Nat) (ws : List (Addr × Word)) :
    (s.endStep n).holdPort u k ws = (s.holdPort u k ws).endStep n := by
  have e : (s.holdPort u k ws).lane n = s.lane n := rfl
  symm
  cases h : (s.lane n).stopAtStepEnd
  · by_cases hi : (s.lane n).stepIndex = 63
    · rw [State.endStep_runs_off _ n (by rw [e]; exact hi) (by rw [e]; exact h), State.endStep_runs_off _ n hi h]
      rfl
    · have hlt : (s.lane n).stepIndex.val + 1 < 64 := by
        have h1 := (s.lane n).stepIndex.isLt
        have h2 : (s.lane n).stepIndex.val ≠ 63 := fun h' => hi (Fin.ext h')
        omega
      by_cases hc : (s.lane n).stepCount < 256
      · rw [State.endStep_eq _ n ⟨_, hlt⟩ (by rw [e]) (by rw [e]; exact h) (by rw [e]; exact hc),
          State.endStep_eq _ n ⟨_, hlt⟩ rfl h hc]
        rfl
      · rw [State.endStep_spent _ n ⟨_, hlt⟩ (by rw [e]) (by rw [e]; exact h) (by rw [e]; omega),
          State.endStep_spent _ n ⟨_, hlt⟩ rfl h (by omega)]
        rfl
  · rw [State.endStep_stops _ n (by rw [e]; exact h), State.endStep_stops _ n h, State.enterStopped_done,
      State.enterStopped_done]
    rfl

/-- A granted step fetch (R80): the record is copied and checked, and the step carried out or the lane faulted. -/
theorem State.stepFetchGrant_eq (s : State) (n : Fin 4) (q : Quad) (hg : s.grantable = some (.fetch n))
    (hq : Memory.readQuad s.mem (s.lane n).stepAddr = q) : s.stepFetchGrant =
      (match s.checkedStep n q with
        | some step => (s.countGrant (.fetch n)).setLane n { s.lane n with step := some q, entry := none, work := .none }
            |>.carryOut n step
        | none => (s.countGrant (.fetch n)).setLane n { s.lane n with step := some q, entry := none, work := .none }
            |>.structuralFault n .badStep (s.lane n).stepIndex).holdPort (.fetch n) 4 [] := by
  have hk : ((s.countGrant (.fetch n)).setLane n
      { s.lane n with step := some q, entry := none, work := .none }).checkedStep n q = s.checkedStep n q := by
    unfold State.checkedStep
    rw [State.lane_setLane_same]
    rfl
  have hl : (s.countGrant (.fetch n)).lane n = s.lane n := rfl
  have hm : (s.countGrant (.fetch n)).mem = s.mem := rfl
  cases hc : s.checkedStep n q <;> simp only [State.stepFetchGrant, hg, State.fetchStep, hl, hm, hq, hk, hc]

/-- A cycle start (R115). -/
theorem State.startCycle_eq (s : State) (n : Fin 4) : s.startCycle n = s.setLane n (s.lane n).atCycleStart := by
  unfold State.startCycle
  dsimp only
  rw [State.placeFetch_eq _ _ _ (by rw [State.lane_setLane_same]; exact Nat.zero_lt_succ _), State.lane_setLane_same, State.setLane_setLane]
  rfl

end Sys2Proof.Machine
end

