-- ==== Sys2Proof/Tests/Slice0.lean ====
section
/-! SUPPORT. Tests on small states: the well-formedness checks, what single commands do, and for each obligation a state and
operands that meet its hypotheses, clause by clause. -/

namespace Sys2Proof.Tests

open Sys2Proof Sys2Proof.Machine

/- One test at a time: each evaluation in the kernel waits for the theorems before it. -/
set_option Elab.async false

/-! ### States -/

/-- A tracked mirror window of three two-word records, bound to lane 0. -/
def mirror : WindowEntry := { base := 0x00100, lane := 0, kind := .mirror, option := true, size := 2, count := 3 }

/-- A feed window with read locking, two three-word records, bound to lane 1. -/
def feed : WindowEntry := { base := 0x00110, lane := 1, kind := .feed, option := true, size := 3, count := 2 }

def table : Sixteen WindowEntry := Sixteen.set (Sixteen.set (Sixteen.replicate WindowEntry.unused) 0 mirror) 15 feed

/-- A STOPPED lane with its program at a page. -/
def loaded (page : BitVec 12) : Lane := { Lane.reset with settings := { LaneSettings.default with page := some page } }

/-- The part in OFFLINE with two windows and lanes 0 to 2 loaded. -/
def offline : State :=
  { State.reset with table := table, lanes := ⟨loaded 2, loaded 3, loaded 4, Lane.reset⟩ }

def online : State := { offline with mode := .online }

def quiet : State := { offline with mode := .quiet }

/-- Lane 0 in a state, with a piece of work in hand. -/
def lane0 (s : State) (state : LaneState) (work : Work) : State :=
  s.setLane 0 { s.lane 0 with state := state, work := work, startMode := .period }

theorem page_offline (n : Fin 4) (p : BitVec 12) (h : p ∈ (offline.lane n).settings.page) : p = 2 ∨ p = 3 ∨ p = 4 := by
  match n with
  | 0 => exact Or.inl (Option.some.inj h).symm
  | 1 => exact Or.inr (Or.inl (Option.some.inj h).symm)
  | 2 => exact Or.inr (Or.inr (Option.some.inj h).symm)
  | 3 => cases h

theorem apart_offline : TableApart offline offline.table ∧ AreasApart offline := by
  refine ⟨fun w hw => ⟨?_, ?_, fun n p hp => ?_, ?_⟩, fun n p hp => ?_, by decide +kernel⟩
  · revert hw; revert w; decide +kernel
  · revert hw; revert w; decide +kernel
  · rcases page_offline n p hp with rfl | rfl | rfl <;> (revert hw; revert w; decide +kernel)
  · revert hw; revert w; decide +kernel
  · rcases page_offline n p hp with rfl | rfl | rfl <;> decide +kernel

/-- The windows, the base and the program pages are those of `offline`. -/
def sameAreas (s : State) : Bool :=
  s.table == offline.table && s.strap == offline.strap
    && laneList.all fun n => (s.lane n).settings.page == (offline.lane n).settings.page

/-- The statements about commands ask for an access that is granted at once, the engine IDLE and AreaLaws. -/
def takes (s : State) : Bool := s.ready && s.engine == .idle && sameAreas s

theorem areas (s : State) (h : takes s = true) : AreaLaws s := by
  simp only [takes, sameAreas, Bool.and_eq_true, beq_iff_eq, List.all_eq_true] at h
  obtain ⟨⟨_, he⟩, ⟨ht, hs⟩, hp⟩ := h
  have hp : ∀ n, (s.lane n).settings.page = (offline.lane n).settings.page := fun n => hp n (by revert n; decide)
  have hb : s.base = offline.base := by simp [State.base, hs]
  refine ⟨?_, ?_, fun t h => by rw [he] at h; cases h⟩
  · rw [ht]
    simp only [TableApart, hp, hb]
    exact apart_offline.1
  · simp only [AreasApart, hp, hb]
    exact apart_offline.2

/-- The part is executing a SOFT RESET that is not finished. -/
def busy (s : State) : State := { s with engine := .executing .softReset }

/-- Lane 0 claims its step fetch, and its program area starts with the words of `q`. -/
def atStep (q : Quad) (l : Lane) : State :=
  { online.setLane 0 { l with state := .running, work := .fetchClaim } with
    mem := Memory.writeAll [] [(0x200, q.w0), (0x201, q.w1), (0x202, q.w2), (0x203, q.w3)] }

/-- What the statements about a fetched step ask. -/
def fetches (s : State) (q : Quad) : Bool :=
  decide (s.grantable = some (.fetch 0)) && !s.finishes && Memory.readQuad s.mem (s.lane 0).stepAddr == q

/-- Lane n with a step in hand and a piece of work. -/
def working (n : Fin 4) (q : Quad) (w : Work) : State :=
  online.setLane n { online.lane n with state := .running, work := w, step := some q }

/-- Lane 0 in a call, its engine in a state. -/
def inCall (c : Call) (e : EngineState) (reply : Option Word) : State :=
  let l := { online.lane 0 with state := .running, work := .calling }
  online.setLane 0 { l with link := { l.link with engine := e, call := some c, reply := reply, expected := 2 } }

def sendStep : Quad := { w0 := 0x1000, w1 := 0x0000, w2 := 0x0002, w3 := 0 }

def changedStep : Quad := { w0 := 0x1100, w1 := 0x0000, w2 := 0x0002, w3 := 0 }

/-- A FETCH step of lane 1 for both records of window 15. -/
def fetchStep : Quad := { w0 := 0x2005, w1 := 0xF000, w2 := 0x0001, w3 := 0 }

def put : Call := { verb := .put, node := 3, words := [0x1234], requested := 0, exact := false }

def get : Call := { verb := .get, node := 5, words := [], requested := 2, exact := true }

def broadcast : Call := { verb := .ctl, node := 63, words := [1], requested := 0, exact := false }

/-- An entry for record 1 of window 15. -/
def entry : HoldEntry :=
  { window := 15, record := 1, data := [0xAAAA, 0xBBBB], stamp := { count := 2, outcome := .ok, replaced := false, tag := 7 } }

def failed : HoldEntry :=
  { window := 15, record := 1, data := [], stamp := { count := 0, outcome := .noAnswer, replaced := false, tag := 7 } }

def lock (k : Nat) : LockEntry := { window := 15, record := k, remaining := 64 }

def burst (user : BurstUser) (writes : List (Addr × Word)) : Burst :=
  { user := user, length := writes.length, writes := writes, done := 0 }

/-! ### Well-formedness -/

theorem test_refuses_a_known_code : (Instr.unknownCommand 0x01 0).wellFormed = false := by decide

theorem test_refuses_a_record_above_255 : (Instr.lockExpiry 0 256).wellFormed = false := by decide

theorem test_accepts_an_unknown_code : (Instr.unknownCommand 0x00 0).wellFormed = true := by decide

theorem test_no_word_spells_a_command : decodeTableWord 16 0x1234 = none := rfl

/-! ### What single commands do -/

/-- The state after one command. -/
def after (i : Instr) (s : State) : State :=
  match exec i s with
  | .next t => t
  | .fault _ => s
  | .refused _ => s

theorem test_go_online_fills_sets :
    (after (.goOnline 0) offline).mode = .online ∧ (after (.goOnline 0) offline).changedSet 0 = [0, 1, 2] := by
  decide +kernel

theorem test_tracked_write :
    (after (.trackedMirrorWrite 0x103 0x1234 .both) online).changedSet 0 = [1]
      ∧ Memory.readWord (after (.trackedMirrorWrite 0x103 0x1234 .both) online).mem 0x103 = 0x1234 := by
  decide +kernel

theorem test_first_word_read_locks :
    (after (.firstWordRead 0x113 .both) online).locks = [{ window := 15, record := 1, remaining := 1024 }] := by
  decide +kernel

theorem test_stamp_read_releases :
    (after (.stampRead 0x115 .both) { online with locks := [lock 1] }).locks = [] := by
  decide +kernel

theorem test_guard :
    (after (.blockedWrite 0x80 1 .both) online).guardAddr = 0x80
      ∧ (after (.blockedWrite 0x80 1 .both) online).isPending 5 = true := by
  decide +kernel

/-- The header of a GET to node 5 for 4 words is 1504h, sent with parity 1 (section 4.9). -/
theorem test_header :
    ({ get with requested := 4 } : Call).header = 0x1504 ∧ parityBit 0x1504 = true ∧ parityBit 0x1505 = false
      ∧ parityBit 0x0000 = true ∧ parityBit 0xFFFF = true := by
  decide

/-- The stamps of section 5.12. -/
theorem test_stamps :
    ({ count := 4, outcome := .ok, replaced := false, tag := 5 } : Stamp).word = 0x2005
      ∧ ({ count := 4, outcome := .nodeFault, replaced := false, tag := 5 } : Stamp).word = 0x2205
      ∧ ({ count := 0, outcome := .noAnswer, replaced := false, tag := 5 } : Stamp).word = 0x0105
      ∧ ({ count := 0, outcome := .short, replaced := false, tag := 5 } : Stamp).word = 0x0505 := by
  decide

/-- The steps of section 5.12, and its GET header to node 20. -/
theorem test_steps :
    decodeStep { w0 := 0x313F, w1 := 0, w2 := 1, w3 := 0xA0 } .period = some (.inline 63 [1, 0xA0])
      ∧ decodeStep { w0 := 0x5000, w1 := 0, w2 := 0, w3 := 0xC8 } .period = some (.wait 200)
      ∧ decodeStep { w0 := 0x2114, w1 := 0x1000, w2 := 3, w3 := 0 } .period
          = some (.fetch true { window := 1, first := 0, count := 4, node := 20 })
      ∧ decodeStep { w0 := 0x4100, w1 := 0, w2 := 0, w3 := 0 } .period = some (.pulse true)
      ∧ decodeStep { w0 := 0x7000, w1 := 0, w2 := 0, w3 := 0 } .period = some .finish
      ∧ ({ verb := .get, node := 20, words := [], requested := 4, exact := true } : Call).header = 0x5104 := by
  decide +kernel

theorem test_reset_release_samples_straps :
    (after (.hardResetRelease 1) (after (.hardResetAssert 0) online)).base = 0x3FF00 := by
  decide +kernel

theorem test_status_cause_first :
    (after .statusWriteGrant State.reset).sweep = 0 ∧ State.reset.statusChoice = some 3
      ∧ (after .statusWriteGrant State.reset).port = some statusBurst := by
  decide +kernel

/-- An access that comes while a status write holds the port waits with HWAIT#; the next grant row comes after the write. -/
theorem test_access_waits_for_status_write :
    (after (.accessWait { write := false, addr := 0x100, data := 0, sel := .both })
        (after .statusWriteGrant State.reset)).hwaitAsserted = true
      ∧ (after .statusWriteGrant (after .statusWriteGrant State.reset)).sweep = 1 := by
  decide +kernel

/-- An access passes during power-on reset, and the SRAM keeps it. -/
theorem test_access_passes_in_power_on_reset :
    let s := after (.processorWrite 0x80 7 .both) (after (.powerOnReset 0 (.suppliesGood [(0x81, 5)])) online)
    s.phase = .powerOnReset ∧ (after (.powerOnReset 1 .ends) s).base = 0x3FF00
      ∧ Memory.readWord (after (.powerOnReset 1 .ends) s).mem 0x80 = 7
      ∧ Memory.readWord (after (.powerOnReset 1 .ends) s).mem 0x81 = 5 := by
  decide +kernel

theorem test_period_tick_late :
    (after (.periodTick 0) (online.setLane 0 { online.lane 0 with state := .running, periodTimer := some 0 })).isPending 7
      = true := by
  decide +kernel

/-! ### Each statement's hypotheses are met -/

theorem test_meets_StepRunsFrontCommand :
    ({ online with pending := [.captureGrant, .goOnline 0] } : State).pending = .captureGrant :: [.goOnline 0] := rfl

/-- No status word is stale. -/
def written (s : State) : State :=
  { s with
    status := (List.range 41).map fun i => { written := s.statusValue i, forced := false }
    resultMarked := false, detailMarked := false, guardLowMarked := false, guardHighMarked := false }

/-- R133: a second blocked write of the same address leaves both guard address words stale, whatever was last written. -/
theorem test_blocked_write_marks_both :
    let s := after (.blockedWrite 0x80 7 .both) (written (after (.blockedWrite 0x80 7 .both) offline))
    s.guardAddr = 0x80 ∧ s.stale 6 = true ∧ s.stale 7 = true ∧ s.statusValue 7 = 0
      ∧ (s.writeStatus 6).stale 6 = false ∧ (s.writeStatus 6).stale 7 = true ∧ (s.writeStatus 7).stale 7 = false := by
  decide +kernel

/-- R150: GO ONLINE marks both result words, though its detail is the one written last; given again it marks neither. -/
theorem test_changed_result_marks_both :
    (let s := after (.goOnline 0) (written offline)
     s.stale 1 = true ∧ s.stale 2 = true ∧ s.result.detail = offline.result.detail)
      ∧ (let s := after (.goOnline 0) (written (after (.goOnline 0) offline))
         s.stale 1 = false ∧ s.stale 2 = false) := by
  decide +kernel

/-- R151: the final result of a GO OFFLINE that finishes before its EXECUTING value is written marks both words, though it is
the result written last; their writes clear the marks, the sweep going from 81h to 82h. -/
theorem test_long_result_marks_both :
    let s := after (.goOffline 0) (written (after (.goOffline 0) offline))
    s.engine = .idle ∧ s.result = resultOf 0x01 .done 0 ∧ s.stale 1 = true ∧ s.stale 2 = true
      ∧ (s.writeStatus 1).stale 1 = false ∧ (s.writeStatus 1).stale 2 = true ∧ (s.writeStatus 2).stale 2 = false := by
  decide +kernel

theorem test_meets_StepOnEmptyQueue :
    (offline.pending = [] ∧ offline.dueEvent = some .statusWriteGrant)
      ∧ (written offline).pending = [] ∧ (written offline).dueEvent = none := by
  decide +kernel

theorem test_meets_HardResetAssertOutcome :
    (online.phase ≠ .powerOnReset ∧ online.port = none ∧ online.upstream = none ∧ MemoryLaw online)
      ∧ (let s : State := { online with
           port := some (burst (.commit 1) [(0x113, 1), (0x115, 2)])
           upstream := some { write := true, addr := 0x80, data := 1, sel := .both } }
         s.phase ≠ .powerOnReset ∧ s.port.isSome = true ∧ s.upstream.isSome = true)
      ∧ (let s : State := { online with upstream := some { write := false, addr := 0x100, data := 0, sel := .both } }
         s.phase ≠ .powerOnReset ∧ s.upstream.isSome = true) := by
  decide +kernel

theorem test_meets_ResetEnds :
    ((after (.hardResetAssert 0) online).phase = .hardReset
        ∧ (after (.powerOnReset 0 (.suppliesGood [])) online).phase = .powerOnReset
        ∧ (State.powerOn 0 []).strap = 0 ∧ (State.powerOn 1 []).strap = 1 ∧ (State.powerOn 2 []).strap = 2
        ∧ (State.powerOn 3 []).strap = 3)
      ∧ (let s := after (.hardResetAssert 0) online
         s.phase ≠ .running ∧ s.port = none ∧ s.upstream = none ∧ s.finishes = false ∧ s.frozen = false
           ∧ (∀ n, (s.lane n).atRest = true)
           ∧ s.base.toNat + 0x80 ≤ (0x80 : Addr).toNat ∧ (0xAF : Addr).toNat ≤ s.base.toNat + 0xAF
           ∧ ¬ (0xB0 : Addr).toNat ≤ s.base.toNat + 0xAF)
      ∧ (let s := after (.powerOnReset 0 (.suppliesGood [])) online
         s.phase ≠ .running ∧ s.port = none ∧ s.upstream = none ∧ s.finishes = false) := by
  decide +kernel

theorem test_meets_GoOnlineResult :
    takes offline = true ∧ offline.mode = .offline ∧ takes quiet = true ∧ quiet.mode ≠ .offline := by
  decide +kernel

theorem test_meets_GoQuietResult :
    (takes online = true ∧ online.mode = .online ∧ ∀ n, (online.lane n).quieted.atRest = true)
      ∧ (let s := lane0 online .running .calling
         takes s = true ∧ s.mode = .online ∧ (s.lane 0).quieted.atRest = false)
      ∧ (let s := lane0 online .running .delay
         takes s = true ∧ s.mode = .online ∧ (s.lane 0).stopsAtQuiet = true)
      ∧ takes quiet = true ∧ quiet.mode = .quiet := by
  decide +kernel

/-- A slot of lane 1 is occupied. -/
def held (s : State) : State := { s with slots := s.slots.set 1 (some entry) }

theorem test_meets_GoOfflineResult :
    (takes online = true ∧ ∀ n, online.slots.get n = none) ∧ takes (held online) = true
      ∧ (held online).slots.get 1 ≠ none := by
  decide +kernel

theorem test_meets_LoadsTaken :
    (takes online = true ∧ online.frozen = false ∧ ∀ n, (online.lane n).atRest = true)
      ∧ (let s := lane0 online .waiting .none
         takes s = true ∧ s.frozen = false ∧ (s.lane 0).active = true ∧ ∀ m : Fin 4, m < 0 → (s.lane m).atRest = true) := by
  decide +kernel

theorem test_meets_CommandRefusals :
    (takes offline = true ∧ offline.mode = .offline) ∧ (takes quiet = true ∧ quiet.mode = .quiet)
      ∧ (let s : State := { online with frozen := true }
         takes s = true ∧ s.frozen = true)
      ∧ (takes online = true ∧ online.mode = .online ∧ 4 ≤ (4 : Byte).toNat ∧ 4 ≤ (255 : Byte).toNat)
      ∧ (let s := lane0 online .faulted .none
         takes s = true ∧ s.mode = .online ∧ (0 : Byte).toNat = (0 : Fin 4).val ∧ (s.lane 0).state = .faulted)
      ∧ (online.lane 3).state ≠ .faulted ∧ (online.lane 3).loaded = false ∧ (3 : Byte).toNat = (3 : Fin 4).val := by
  decide +kernel

theorem test_meets_StartResult :
    (takes online = true ∧ online.mode = .online ∧ (2 : Byte).toNat = (2 : Fin 4).val
        ∧ (online.lane 2).state ≠ .faulted ∧ (online.lane 2).loaded = true ∧ (online.lane 2).owedRecord = none)
      ∧ (let s := working 0 sendStep .calling
         takes s = true ∧ (s.lane 0).loaded = true ∧ (s.lane 0).owedRecord = some (0, 0) ∧ (s.window 0).lane = 0) := by
  decide +kernel

theorem test_meets_StopResult :
    takes online = true ∧ (0 : Byte).toNat = (0 : Fin 4).val ∧ (online.lane 0).state = .stopped
      ∧ takes (lane0 online .waiting .none) = true ∧ takes (lane0 online .running .fetchClaim) = true
      ∧ takes (lane0 online .holding (.heldBack entry)) = true ∧ takes (lane0 online .faulted .none) = true := by
  decide +kernel

theorem test_meets_AbortResult :
    takes online = true ∧ takes (working 0 sendStep .calling) = true
      ∧ ((working 0 sendStep .calling).lane 0).owedRecord = some (0, 0)
      ∧ ((working 0 sendStep .calling).lane 0).atRest = false ∧ (online.lane 0).atRest = true
      ∧ ((inCall put .send none).lane 0).link.call ≠ none ∧ (online.lane 0).link.call = none := by
  decide +kernel

theorem test_meets_AddressMapping :
    (takes online = true ∧ (online.window 0).used = true ∧ 2 < (online.window 0).count ∧ 1 < (online.window 0).size
        ∧ online.mode ≠ .offline ∧ (online.window 0).wordAddr 2 1 = 0x105 ∧ (online.window 0).wordAddr 0 0 = 0x100)
      ∧ online.place 0x105 = some { window := 0, record := 2, word := 1 } ∧ online.place 0x106 = none
      ∧ takes offline = true ∧ offline.mode = .offline ∧ offline.place 0x105 = none := by
  decide +kernel

theorem test_meets_ClearResult : takes (lane0 online .faulted .none) = true ∧ takes online = true := by
  decide +kernel

theorem test_meets_MarkChangedResult :
    ((busy online).ready = true ∧ sameAreas (busy online) = true ∧ (busy online).finishes = false)
      ∧ takes offline = true ∧ takes quiet = true ∧ 16 ≤ (16 : Byte).toNat
      ∧ (15 : Byte).toNat = (15 : Fin 16).val ∧ (quiet.window 15).tracked = false ∧ (quiet.window 0).tracked = true := by
  decide +kernel

theorem test_meets_ReleaseLocksResult :
    (busy online).ready = true ∧ (busy online).finishes = false ∧ takes offline = true ∧ takes (held online) = true := by
  decide +kernel

theorem test_meets_FreezeResults :
    takes online = true ∧ online.frozen = false ∧ online.armed = false
      ∧ takes { online with armed := true } = true ∧ takes { online with frozen := true } = true := by
  decide +kernel

theorem test_meets_SoftResetResult : takes online = true ∧ CountLaws online ∧ online.frozen = false := by
  decide +kernel

theorem test_meets_UnknownAndBusy :
    (Instr.unknownCommand 0 7).wellFormed = true ∧ takes online = true
      ∧ commandWord (.freezeSecond 0) = some (0x31, 0) ∧ (busy online).ready = true ∧ (busy online).finishes = false := by
  decide +kernel

theorem test_meets_ProcessorWriteForwarded :
    (online.ready = true ∧ online.finishes = false ∧ online.guarded 0x110 = false ∧ online.guarded 0x300 = false
        ∧ online.place 0x110 = some { window := 15, record := 0, word := 0 } ∧ (online.window 15).tracked = false
        ∧ online.blockOffset 0x00 = some 0 ∧ online.blockOffset 0x110 = none)
      ∧ MemoryLaw online := by
  decide +kernel

theorem test_meets_TrackedWriteAddsRecord :
    takes online = true ∧ online.finishes = false ∧ online.place 0x105 = some { window := 0, record := 2, word := 1 }
      ∧ (online.window 0).tracked = true := by
  decide +kernel

theorem test_meets_GuardBlocksWrites :
    (online.phase = .running ∧ online.ready = true ∧ online.finishes = false ∧ online.guarded 0x80 = true
        ∧ online.guarded 0xAF = true ∧ online.guarded 0x7F = false ∧ online.guarded 0xB0 = false)
      ∧ (let s : State := { online with frozen := true }
         s.guarded 0x03 = true ∧ s.guarded 0x7F = true ∧ s.guarded 0x02 = false ∧ s.guarded 0x200 = true)
      ∧ (lane0 online .running .none).guarded 0x200 = true ∧ (lane0 online .running .none).guarded 0x2FF = true
      ∧ (lane0 online .running .none).guarded 0x300 = false := by
  decide +kernel

theorem test_meets_EventsCleared : takes online = true ∧ online.finishes = false := by
  decide +kernel

theorem test_meets_LockingReads :
    (takes online = true ∧ online.finishes = false ∧ (online.window 15).locking = true
        ∧ online.place 0x113 = some { window := 15, record := 1, word := 0 } ∧ online.locked 15 1 = false
        ∧ online.locks.length < 4
        ∧ online.place 0x115 = some { window := 15, record := 1, word := (online.window 15).size - 1 })
      ∧ (let s : State := { online with locks := [lock 1] }
         takes s = true ∧ s.locked 15 1 = true)
      ∧ (let wide : WindowEntry := { feed with size := 2, count := 5 }
         let s : State := { online with table := Sixteen.set table 15 wide, locks := [lock 0, lock 1, lock 2, lock 3] }
         s.ready = true ∧ s.finishes = false ∧ LockLaws s ∧ s.locked 15 4 = false
           ∧ s.place 0x118 = some { window := 15, record := 4, word := 0 }) := by
  decide +kernel

theorem test_meets_AccessWaits :
    online.upstream = none ∧ online.accessGrantable = true
      ∧ ({ online with port := some (burst (.commit 1) [(0x115, 2)]) } : State).accessGrantable = false := by
  decide +kernel

/-- The fairness count stands at 4 with a claim waiting. -/
def unfair : State := { online with arbiter := { online.arbiter with fairness := 4 } }

theorem test_meets_ArbiterRule :
    (({ online with port := some (burst .tableRead []) } : State).port ≠ none
        ∧ (written offline).claimWaiting = false ∧ online.claimWaiting = true ∧ online.arbiter.fairness = 0
        ∧ unfair.claimWaiting = true ∧ unfair.port = none ∧ online.bridgeChoice = some .status
        ∧ online.claims .status = true ∧ (after (.hardResetAssert 0) online).phase ≠ .running)
      ∧ ({ online with port := some (fetchBurst 2) } : State).port = some (fetchBurst 2)
      ∧ ({ online with port := some statusBurst } : State).port = some statusBurst := by
  decide +kernel

/-- The commits of lanes 0 and 1 and the drain of slot 1 wait with the pointer at slot 0's drain: lane 1's commit is next. -/
theorem test_ring_order :
    let s : State := { (working 0 fetchStep (.commitClaim entry)).setLane 1 (working 1 fetchStep (.commitClaim entry)).lanes.e1 with
      drains := online.drains.set 1 true, arbiter := { online.arbiter with commitPtr := 1 } }
    s.bridgeChoice = some (.commit 1) ∧ s.turn (.commit 1) = 1 ∧ s.turn (.drain 1) = 2 ∧ s.turn (.commit 0) = 7 := by
  decide +kernel

theorem test_meets_StepChecks :
    (let s := atStep { w0 := 0x9000, w1 := 0, w2 := 0, w3 := 0 } (online.lane 0)
     s.grantable = some (.fetch 0) ∧ s.checkedStep 0 (Memory.readQuad s.mem (s.lane 0).stepAddr) = none)
      ∧ online.checkedStep 0 sendStep ≠ none ∧ online.checkedStep 1 fetchStep ≠ none
      ∧ online.checkedStep 1 sendStep = none
      ∧ (0 : Fin 16).val = (sendStep.w1.extractLsb' 12 4).toNat ∧ 0 = (sendStep.w1.extractLsb' 0 8).toNat
      ∧ 3 = (sendStep.w2.extractLsb' 0 8).toNat + 1 ∧ 0 = sendStep.w0.extractLsb' 0 6 ∧ false = sendStep.w0.getLsbD 8 := by
  decide +kernel

/-- Records at the edges of R83 and R84: a zero bit, kinds 0 and 8, FETCH from node 63, PULSE with a node, WAIT 0, a trigger WAIT
in start mode TRIGGER, JUMP 64, END with the option, an INLINE of one word with w3. -/
theorem test_bad_steps :
    ([{ w0 := 0x7040, w1 := 0, w2 := 0, w3 := 0 }, { w0 := 0x7800, w1 := 0, w2 := 0, w3 := 0 },
      { w0 := 0x0000, w1 := 0, w2 := 0, w3 := 0 }, { w0 := 0x8000, w1 := 0, w2 := 0, w3 := 0 },
      { w0 := 0x203F, w1 := 0, w2 := 0, w3 := 0 }, { w0 := 0x4001, w1 := 0, w2 := 0, w3 := 0 },
      { w0 := 0x5000, w1 := 0, w2 := 0, w3 := 0 }, { w0 := 0x5100, w1 := 0, w2 := 0, w3 := 0 },
      { w0 := 0x6000, w1 := 0, w2 := 0, w3 := 64 }, { w0 := 0x7100, w1 := 0, w2 := 0, w3 := 0 },
      { w0 := 0x3005, w1 := 0, w2 := 1, w3 := 1 }] : List Quad).all (fun q => (decodeStep q .trigger).isNone) = true
      ∧ decodeStep { w0 := 0x5100, w1 := 0, w2 := 0, w3 := 0 } .once = some .waitTrigger := by
  decide +kernel

/-- Lane 0 claims the fetch of a step record that is checked to be `step`. -/
def fetchesStep (q : Quad) (step : Step) : Bool :=
  fetches (atStep q (online.lane 0)) q && (atStep q (online.lane 0)).checkedStep 0 q == some step

theorem test_meets_InlineWaitAndPulseSteps :
    fetchesStep { w0 := 0x3005, w1 := 0, w2 := 7, w3 := 0 } (.inline 5 [7]) = true
      ∧ fetchesStep { w0 := 0x313F, w1 := 0, w2 := 7, w3 := 8 } (.inline 63 [7, 8]) = true
      ∧ fetchesStep { w0 := 0x5000, w1 := 0, w2 := 0, w3 := 65535 } (.wait 65535) = true
      ∧ fetchesStep { w0 := 0x5100, w1 := 0, w2 := 0, w3 := 0 } .waitTrigger = true
      ∧ fetchesStep { w0 := 0x4000, w1 := 0, w2 := 0, w3 := 0 } (.pulse false) = true
      ∧ fetchesStep { w0 := 0x4100, w1 := 0, w2 := 0, w3 := 0 } (.pulse true) = true
      ∧ (online.lane 0).triggerLatch = false
      ∧ (let q : Quad := { w0 := 0x5100, w1 := 0, w2 := 0, w3 := 0 }
         fetches (atStep q { online.lane 0 with triggerLatch := true }) q = true) := by
  decide +kernel

theorem test_meets_SendAndFetchSteps :
    (let s := atStep sendStep (online.lane 0)
     fetches s sendStep = true
       ∧ s.checkedStep 0 sendStep = some (.send false { window := 0, first := 0, count := 3, node := 0 }))
      ∧ (let s : State := { atStep changedStep (online.lane 0) with changed := Sixteen.set online.changed 0 [2] }
         fetches s changedStep = true
           ∧ s.checkedStep 0 changedStep = some (.send true { window := 0, first := 0, count := 3, node := 0 })
           ∧ 2 ∈ s.changedSet 0 ∧ ∀ j < 2, j ∉ s.changedSet 0)
      ∧ (fetches (atStep changedStep (online.lane 0)) changedStep = true
          ∧ (atStep changedStep (online.lane 0)).changedSet 0 = [])
      ∧ (let s : State := { atStep changedStep { online.lane 0 with stopAtStepEnd := true } with
           changed := Sixteen.set online.changed 0 [0] }
         fetches s changedStep = true ∧ (s.lane 0).stopAtStepEnd = true ∧ 0 ∈ s.changedSet 0)
      ∧ (let s : State := { atStep fetchStep (online.lane 0) with
           table := Sixteen.set table 15 { feed with lane := 0 } }
         fetches s fetchStep = true
           ∧ s.checkedStep 0 fetchStep = some (.fetch false { window := 15, first := 0, count := 2, node := 5 })) := by
  decide +kernel

theorem test_selection_nodes :
    ({ window := 0, first := 2, count := 3, node := 60 } : Selection).nodeOf 4 = 62
      ∧ ({ window := 0, first := 2, count := 3, node := 63 } : Selection).nodeOf 4 = 63 := by
  decide

theorem test_meets_NextStepResult :
    (let q : Quad := { w0 := 0x6000, w1 := 0, w2 := 0, w3 := BitVec.ofNat 16 (63 : Fin 64).val }
     fetches (atStep q (online.lane 0)) q = true ∧ ((atStep q (online.lane 0)).lane 0).stepCount < 256
       ∧ fetches (atStep q { online.lane 0 with stepCount := 256 }) q = true
       ∧ fetches (atStep q { online.lane 0 with stopAtStepEnd := true }) q = true)
      ∧ ({ online.lane 0 with stepIndex := 63 } : Lane).stepIndex = 63
      ∧ (63 : Fin 64).val = ({ online.lane 0 with stepIndex := 62, stepCount := 255 } : Lane).stepIndex.val + 1 := by
  decide +kernel

theorem test_meets_EndStepResult :
    (let q : Quad := { w0 := 0x7000, w1 := 0, w2 := 0, w3 := 0 }
     fetches (atStep q { online.lane 0 with startMode := .once }) q = true
       ∧ fetches (atStep q { online.lane 0 with startMode := .period, startOwed := true }) q = true
       ∧ fetches (atStep q { online.lane 0 with startMode := .trigger }) q = true) := by
  decide +kernel

theorem test_meets_CaptureResult :
    (let s := working 0 sendStep .captureClaim
     (s.lane 0).currentStep = some (.send false { window := 0, first := 0, count := 3, node := 0 })
       ∧ s.grantable = some (.capture 0) ∧ s.finishes = false)
      ∧ (let s : State := { working 0 sendStep .capturing with port := some (burst (.capture 0) []) }
         s.port = some { user := .capture 0, length := 0, writes := [], done := 0 }
           ∧ (s.lane 0).work = .capturing ∧ s.finishes = false) := by
  decide +kernel

theorem test_meets_CommitDecision :
    (let s := working 1 fetchStep (.commitClaim entry)
     s.grantable = some (.commit 1) ∧ s.locked 15 1 = false ∧ slotHolds (s.slots.get 1) 15 1 = false
       ∧ slotHolds ((held s).slots.get 1) 15 1 = true ∧ (held s).grantable = some (.commit 1))
      ∧ (let s : State := { working 1 fetchStep (.commitClaim entry) with locks := [lock 1] }
         s.grantable = some (.commit 1) ∧ s.locked 15 1 = true ∧ s.slots.get 1 = none
           ∧ (held s).grantable = some (.commit 1) ∧ slotHolds ((held s).slots.get 1) 15 1 = true)
      ∧ (let s : State := { working 1 fetchStep (.commitClaim { entry with record := 0 }) with locks := [lock 0, lock 1] }
         (held s).grantable = some (.commit 1) ∧ (held s).locked 15 0 = true
           ∧ slotHolds ((held s).slots.get 1) 15 0 = false) := by
  decide +kernel

theorem test_meets_ResolvedCommitGoesOn :
    (let s := working 1 fetchStep (.commitClaim failed)
     (s.lane 1).currentStep = some (.fetch false { window := 15, first := 0, count := 2, node := 5 })
       ∧ failed.stamp.outcome.isFailure = true ∧ entry.stamp.outcome.isFailure = false
       ∧ (s.lane 1).settings.halt = false ∧ (s.lane 1).stopAtStepEnd = false ∧ (s.lane 1).position + 1 < 0 + 2)
      ∧ (let s := online.setLane 1 { (working 1 fetchStep .none).lanes.e1 with
           settings := { (online.lane 1).settings with halt := true }, stopAtStepEnd := true, position := 1 }
         (s.lane 1).currentStep = some (.fetch false { window := 15, first := 0, count := 2, node := 5 })
           ∧ (s.lane 1).settings.halt = true ∧ (s.lane 1).stopAtStepEnd = true ∧ 0 + 2 ≤ (s.lane 1).position + 1) := by
  decide +kernel

theorem test_meets_WriteBurstEnds :
    (let s : State := { working 1 fetchStep (.committing entry) with port := some (burst (.commit 1) [(0x115, 2)]) }
     s.port = some { user := .commit 1, length := 1, writes := [(0x115, 2)], done := 0 }
       ∧ (s.lane 1).work = .committing entry ∧ MemoryLaw s
       ∧ (([(0x113, 1), (0x115, 2)] : List (Addr × Word)).map fun p => p.1).Nodup)
      ∧ (let s : State := { lane0 (held online) .holding (.heldBack entry) with port := some (burst (.drain 0) [(0x115, 2)]) }
         (s.lane 0).state = .holding ∧ (s.lane 0).work = .heldBack entry ∧ (s.lane 1).state ≠ .holding) := by
  decide +kernel

theorem test_meets_DrainGrantResult :
    (let s : State := { held online with drains := online.drains.set 1 true }
     s.grantable = some (.drain 1) ∧ s.finishes = false ∧ s.slots.get 1 = some entry ∧ s.locked 15 1 = false
       ∧ ({ s with locks := [lock 1] } : State).locked 15 1 = true ∧ takes { s with drains := online.drains } = true
       ∧ entry.record < (s.window 15).count ∧ entry.data.length < (s.window 15).size ∧ entry.stamp.count < 32) := by
  decide +kernel

theorem test_meets_LongCommandsFinish :
    online.finishes = false ∧ (∀ n, (online.lane n).atRest = true) ∧ (∀ n, online.slots.get n = none)
      ∧ online.mode ≠ .offline ∧ ∀ w ∈ (written online).status, w.forced = false := by
  decide +kernel

theorem test_meets_LoadsRead :
    (let s : State := { online with engine := .executing (.loadSettings []) }
     s.grantable = some .table)
      ∧ (let s : State := { online with engine := .executing (.loadWindows []) }
         s.grantable = some .table)
      ∧ (burst .tableRead [(0, 0), (0, 0), (0, 0), (0, 0)]).length = 4 := by
  decide +kernel

def settingsImage : List Quad :=
  [{ w0 := 1, w1 := 0, w2 := 255, w3 := 1 }, { w0 := 8, w1 := 64, w2 := 5, w3 := 0 }, { w0 := 100, w1 := 8, w2 := 0, w3 := 0 },
   { w0 := 8, w1 := 64, w2 := 0xFFFF, w3 := 0 }, { w0 := 100, w1 := 8, w2 := 0, w3 := 0 },
   { w0 := 8, w1 := 64, w2 := 0xFFFF, w3 := 0 }, { w0 := 100, w1 := 8, w2 := 0, w3 := 0 },
   { w0 := 8, w1 := 64, w2 := 0xFFFF, w3 := 0 }, { w0 := 100, w1 := 128, w2 := 0, w3 := 0 }]

/-- Only offsets up to 2Fh are examined. -/
theorem valid_all (image : List Quad) (h : ∀ off : Fin 0x30, SettingValid image off.val) (off : Nat) : SettingValid image off := by
  by_cases hlt : off < 0x30
  · exact h ⟨off, hlt⟩
  · refine ⟨fun e => absurd e (by omega), fun e => absurd e (by omega), fun e => absurd e (by omega), fun e => absurd e.2 (by omega)⟩

def noDivider : List Quad := settingsImage.set 1 { w0 := 1, w1 := 64, w2 := 5, w3 := 0 }

/-- Lane 0's new area is page 1, in which the windows lie. -/
def overWindows : List Quad := settingsImage.set 1 { w0 := 8, w1 := 64, w2 := 1, w3 := 0 }

theorem test_meets_LoadSettingsFinishes :
    settingsImage.length = 9 ∧ (∀ off, SettingValid settingsImage off) ∧ (∀ n, ¬ NewAreaMeets online settingsImage n)
      ∧ noDivider.length = 9 ∧ ¬ SettingValid noDivider 0x10 ∧ (∀ o : Fin 0x10, SettingValid noDivider o.val)
      ∧ overWindows.length = 9 ∧ (∀ off, SettingValid overWindows off) ∧ NewAreaMeets online overWindows 0 := by
  refine ⟨by decide, valid_all _ (by decide +kernel), by decide +kernel, by decide, by decide +kernel, by decide +kernel,
    by decide, valid_all _ (by decide +kernel), by decide +kernel⟩

def windowImage : List Quad :=
  { w0 := 0x400, w1 := 0x200, w2 := 2, w3 := 3 } :: List.replicate 15 { w0 := 0, w1 := 0, w2 := 0, w3 := 0 }

/-- Entry 1 runs into entry 0. -/
def overlapping : List Quad := windowImage.set 1 { w0 := 0x403, w1 := 0, w2 := 1, w3 := 1 }

theorem test_meets_LoadWindowsFinishes :
    (windowImage.length = 16 ∧ overlapping.length = 16)
      ∧ (∀ i < 16, ImagePasses State.reset windowImage i) ∧ State.reset.mode = .offline
      ∧ (∀ j < 1, ImagePasses State.reset overlapping j) ∧ ¬ ImageOutOfRange (burstAt overlapping 1)
      ∧ ImageOverlaps State.reset overlapping 1
      ∧ ImageOutOfRange (burstAt (windowImage.set 0 { w0 := 0, w1 := 0, w2 := 17, w3 := 1 }) 0)
      ∧ (held online).slots.get 1 ≠ none ∧ (held online).mode ≠ .offline := by
  refine ⟨by decide, by decide +kernel, rfl, by decide +kernel, by decide +kernel, by decide +kernel, by decide +kernel,
    by decide +kernel, by decide⟩

theorem test_meets_StatusWriteResult :
    online.grantable = some .status ∧ online.statusChoice = some 3
      ∧ (after .statusWriteGrant online).endBurst.grantable = some .status
      ∧ (after .statusWriteGrant online).endBurst.statusChoice = some 0
      ∧ { written online with detailMarked := true }.statusChoice = some 2 := by
  decide +kernel

theorem test_meets_InterruptLine :
    (after (.hardResetAssert 0) online).phase ≠ .running ∧ online.phase = .running
      ∧ ({ online with lastCause := 16 } : State).lastCause ≤ 19 ∧ ({ online with lastCause := 19 } : State).lastCause ≤ 19 := by
  decide +kernel

theorem test_meets_StatusWordValues :
    (online.locks.length ≤ 4 ∧ (held online).slots.get 1 = some entry ∧ entry.record < 256 ∧ online.slots.get 0 = none
        ∧ online.status[40]? = some { written := 0, forced := true } ∧ online.stale 3 = true)
      ∧ (let s := after .statusWriteGrant online
         s.stale 3 = false ∧ s.sweep < 41 ∧ s.statusChoice = some 0)
      ∧ (written offline).statusChoice = none
      ∧ offline.result ≠ resultOf 0x03 .done 0 := by
  decide +kernel

theorem test_meets_WordsOnTheLane :
    put.verb = .put ∧ put.words.length < 256 ∧ get.verb = .get ∧ get.requested < 256 ∧ broadcast.verb = .ctl
      ∧ broadcast.words.length < 256 := by
  decide

theorem test_meets_LinkTimePasses :
    Link.reset.engine = .idle
      ∧ (let l : Link := { Link.reset with engine := .send, call := some put, bit := 35, sub := 7 }
         l.engine ≠ .idle ∧ l.divider ≤ l.sub + 1 ∧ 18 * (1 + put.words.length) ≤ l.bit + 1 ∧ l.call = some put)
      ∧ ({ Link.reset with engine := .send } : Link).sub + 1 < Link.reset.divider
      ∧ ({ Link.reset with engine := .reply, bit := 17, received := dataBits 0xA5C3 ++ [true] } : Link).received
          = dataBits 0xA5C3 ++ [true]
      ∧ wordOfBits (dataBits 0xA5C3) = 0xA5C3 := by
  decide +kernel

/-- R62: a call requested at an IDLE engine begins at once, so an ABORT that waited for the end of a capture burst finds the PUT
of that capture begun, and cuts it with the abort mark (R71). -/
theorem test_abort_after_capture_burst_drives_mark :
    let s : State := { working 0 sendStep .capturing with port := some (burst (.capture 0) []) }
    let captured := after .captureBurstEnd s
    ((captured.lane 0).link.engine = .send ∧ (captured.lane 0).link.request = none)
      ∧ ((after (.abort 0) s).lane 0).link.engine = .mark ∧ ((after (.abort 0) s).lane 0).state = .stopped := by
  decide +kernel

/-- R62: at an engine that drives a mark, or whose pause has not passed, the request waits. -/
theorem test_request_waits :
    let waits (l : Link) := (({ online.lane 0 with link := l } : Lane).requestCall put).link = { l with request := some put }
    waits { Link.reset with engine := .mark } ∧ waits { Link.reset with pause := 1 } := by
  decide +kernel

theorem test_meets_CallBeginAndMarkEnd :
    ((online.lane 0).link.engine = .idle ∧ (online.lane 0).link.pause = 0)
      ∧ (¬ (({ Link.reset with pause := 1 } : Link).engine = .idle ∧ ({ Link.reset with pause := 1 } : Link).pause = 0))
      ∧ (let l := { online.lane 0 with state := .running, work := .calling }
     let s := online.setLane 0 { l with link := { l.link with request := some put } }
     s.finishes = false ∧ (s.lane 0).link.engine = .idle ∧ (s.lane 0).link.request = some put)
      ∧ (let s := online.setLane 0 { online.lane 0 with link := { Link.reset with engine := .mark } }
         s.finishes = false ∧ (s.lane 0).link.engine = .mark) := by
  decide +kernel

theorem test_meets_PutOrCtlReply :
    (let s := inCall put .reply none
     (s.lane 0).link.awaitsReply = true ∧ (s.lane 0).link.call = some put)
      ∧ goodWord 0x8000 false = true ∧ goodWord 0x8000 true = false ∧ goodWord 0x0000 true = true
      ∧ goodWord 0xC000 true = true := by
  decide +kernel

theorem test_meets_GetReply :
    (let s := inCall get .reply none
     (s.lane 0).link.awaitsReply = true ∧ (s.lane 0).link.call = some get ∧ s.finishes = false)
      ∧ goodWord 0x8001 true = true ∧ 0 < min ((0x8001 : Word).toNat % 256) get.requested
      ∧ min ((0x8000 : Word).toNat % 256) get.requested = 0 ∧ goodWord 0x8000 false = true := by
  decide +kernel

theorem test_meets_DataWordTaken :
    (let s := inCall get .data (some 0x8002)
     s.finishes = false ∧ (s.lane 0).link.engine = .data ∧ (s.lane 0).link.call = some get
       ∧ (s.lane 0).link.reply = some 0x8002 ∧ (s.lane 0).link.taken + 1 < (s.lane 0).link.expected)
      ∧ (let s := inCall get .data (some 0x8002)
         let l := s.lane 0
         let t := s.setLane 0 { l with link := { l.link with taken := 1 } }
         t.finishes = false ∧ (t.lane 0).link.taken + 1 = (t.lane 0).link.expected) := by
  decide +kernel

theorem test_meets_CallsEndWithoutReply :
    (((inCall put .replyWait none).lane 0).link.call = some put ∧ put.node ≠ 63)
      ∧ ((inCall get .dataWait (some 0x8002)).lane 0).link.reply = some 0x8002
      ∧ ((inCall broadcast .tail none).lane 0).link.engine = .tail ∧ broadcast.node = 63 := by
  decide +kernel

theorem test_meets_GetEndBuildsEntry :
    get.verb = .get ∧ ((working 1 fetchStep .calling).lane 1).currentStep
      = some (.fetch false { window := 15, first := 0, count := 2, node := 5 }) := by
  decide +kernel

/-- Lane 0 in the PUT call of a step, under a policy, told to stop or not, at a record of the selection. -/
def inPut (q : Quad) (halt stop : Bool) (position : Nat) : State :=
  let l := (working 0 q .calling).lanes.e0
  online.setLane 0 { l with settings := { l.settings with halt := halt }, stopAtStepEnd := stop, position := position }

theorem test_meets_PutOrCtlEndGoesOn :
    (broadcast.verb = .ctl ∧ put.verb = .put ∧ CallOutcome.isFailure .noAnswer = true ∧ CallOutcome.isFailure .ok = false)
      ∧ ((working 0 { w0 := 0x303F, w1 := 0, w2 := 1, w3 := 0 } .calling).lane 0).currentStep = some (.inline 63 [1])
      ∧ (let s := inPut sendStep false false 1
         (s.lane 0).currentStep = some (.send false { window := 0, first := 0, count := 3, node := 0 })
           ∧ ((s.lane 0).callEnded 3 .ok none).settings.halt = false
           ∧ ((s.lane 0).callEnded 3 .ok none).stopAtStepEnd = false ∧ (s.lane 0).position + 1 < 0 + 3)
      ∧ (let s := inPut changedStep true true 2
         (s.lane 0).currentStep = some (.send true { window := 0, first := 0, count := 3, node := 0 })
           ∧ ((s.lane 0).callEnded 3 .noAnswer none).settings.halt = true
           ∧ ((s.lane 0).callEnded 3 .ok none).stopAtStepEnd = true ∧ 0 + 3 ≤ (s.lane 0).position + 1)
      ∧ (let s : State := { inPut changedStep false false 0 with changed := Sixteen.set online.changed 0 [2] }
         (s.lane 0).currentStep = some (.send true { window := 0, first := 0, count := 3, node := 0 })
           ∧ (s.lane 0).position < 2 ∧ 2 < 0 + 3 ∧ 2 ∈ s.changedSet 0 ∧ ∀ j < 2, j ∉ s.changedSet 0) := by
  decide +kernel

theorem test_meets_LockExpiryResult :
    online.finishes = false ∧ ({ online with locks := [lock 1] } : State).locked 15 1 = true ∧ online.locked 15 1 = false := by
  decide +kernel

theorem test_meets_LaneTimersRunOut :
    (let s := online.setLane 0 { online.lane 0 with state := .waiting, periodTimer := some 0 }
     s.finishes = false ∧ (s.lane 0).periodTimer = some 0 ∧ (s.lane 0).state = .waiting)
      ∧ (let s := online.setLane 0 { online.lane 0 with state := .holding, periodTimer := some 0 }
         s.finishes = false ∧ (s.lane 0).periodTimer = some 0 ∧ (s.lane 0).state = .holding)
      ∧ (let s := lane0 online .running .delay
         s.finishes = false ∧ (s.lane 0).work = .delay ∧ s.phase = .running) := by
  decide +kernel

/-- A delay that runs out at step 63, or with a stop pending there. -/
theorem test_delay_at_step_63 :
    let s (stop : Bool) := online.setLane 0
      { (lane0 online .running .delay).lanes.e0 with stepIndex := 63, stopAtStepEnd := stop }
    (after (.waitDelayExpiry 0) (s false)).isPending 1 = true ∧ ((after (.waitDelayExpiry 0) (s false)).lane 0).state = .faulted
      ∧ (after (.waitDelayExpiry 0) (s true)).isPending 11 = true
      ∧ ((after (.waitDelayExpiry 0) (s true)).lane 0).state = .stopped := by
  decide +kernel

theorem test_meets_TriggerEdgeResult :
    online.finishes = false ∧ online.settings.triggerFalling = false ∧ (online.lane 3).atRest = true
      ∧ ((lane0 online .running .triggerWait).lane 0).startMode = .period
      ∧ ((lane0 online .holding .calling).lane 0).active = true
      ∧ ({ (lane0 online .running .none).lane 0 with startMode := .trigger } : Lane).startMode = .trigger := by
  decide +kernel

theorem test_meets_StepKeepsLaws :
    MemoryLaw online ∧ LockLaws { online with locks := [lock 0, lock 1] } ∧ CountLaws online ∧ SettingsLaws online
      ∧ AreaLaws online := by
  refine ⟨by decide +kernel, by decide +kernel, by decide +kernel, by decide +kernel, ?_⟩
  exact areas online (by decide +kernel)

/-- Lane 1 holds a commit claim, its slot holds a locked record, and lane 0 has captured a record. -/
def busyLanes : State :=
  { (working 0 sendStep .captureClaim).setLane 1 (working 1 fetchStep (.commitClaim entry)).lanes.e1 with
    slots := online.slots.set 1 (some entry), locks := [lock 1] }

theorem test_meets_StepKeepsTrackerAndHoldLaws : TrackerLaws busyLanes ∧ HoldLaws busyLanes := by
  refine ⟨⟨⟨by decide +kernel, by decide +kernel⟩, trivial, by decide +kernel, fun w => ?_⟩, by decide +kernel⟩
  have h : ∀ w, busyLanes.changedSet w = [] := by decide +kernel
  rw [h w]
  exact ⟨List.Pairwise.nil, by simp, fun _ => rfl⟩

end Sys2Proof.Tests
end

section
/-! PROOF. RELEASE LOCKS (R37), by the rows of its rule: turned away while the engine is EXECUTING, refused in mode OFFLINE, else
carried out. -/

namespace Sys2Proof.Machine

/-! ### A command word that meets an EXECUTING engine -/

/-- A command word other than FREEZE SECOND that meets an EXECUTING engine clears *armed* and is answered BUSY with the code of
the command in progress (R147, R149). -/
theorem State.receive_executing (s : State) (code arg : Byte) (long : LongCommand) (he : s.engine = .executing long)
    (hc : commandOf code ≠ some .freezeSecond) :
    s.receiveCommand (joinBytes code arg) = { s with armed := false }.setResult code .busy (long.code.setWidth 16) := by
  unfold State.receiveCommand
  rw [Memory.upperByte_join]
  split
  case h_1 current hcurrent =>
    obtain rfl : current = long := Engine.executing.inj (hcurrent.symm.trans he)
    simp only [if_neg hc]
  case h_2 hidle => exact nomatch hidle.symm.trans he

/-- With the command in progress not at its finish, nothing follows the BUSY answer. -/
theorem State.turned_away (s : State) (code arg : Byte) (long : LongCommand) (hr : s.ready = true) (ha : AreaLaws s)
    (he : s.engine = .executing long) (hf : s.finishes = false) (hc : commandOf code ≠ some .freezeSecond) :
    s.giveCommand code arg = s.commanded code arg .busy (long.code.setWidth 16) := by
  rw [s.giveCommand_ready code arg hr ha, (s.written (s.commandAccess code arg)).receive_executing code arg long he hc]
  exact State.settle_same s _ hf rfl (fun _ => rfl) rfl rfl

/-! ### RELEASE LOCKS -/

/-- The RELEASE LOCKS row is the command word 21h with its argument. -/
theorem exec_releaseLocks (arg : Byte) (s : State) :
    exec (.releaseLocks arg) s = .next (s.giveCommand 0x21 arg) := rfl

/-- RELEASE LOCKS is available in the modes QUIET and ONLINE (R152). -/
theorem releaseLocks_available_iff (m : Mode) : Command.available .releaseLocks m = true ↔ m ≠ .offline := by
  simp [Command.available]

/-- What releasing every lock does once the command word is in memory: the lock table is empty, every occupied slot has its
drain claim placed, and no event is raised (R36, R37). -/
theorem State.takeReleaseLocks_taken (s : State) (arg : Byte) :
    (s.taken 0x21 arg).takeReleaseLocks = { s.commanded 0x21 arg .done 0 with
      locks := [], drains := Four.ofFn fun n => s.drains.get n || (s.slots.get n).isSome } := rfl

/-- Carried out with the engine IDLE and the table active (R37). -/
theorem State.releaseLocks_carried_out (s : State) (arg : Byte) (hr : s.ready = true) (ha : AreaLaws s)
    (he : s.engine = .idle) (hm : s.mode ≠ .offline) :
    s.giveCommand 0x21 arg = (s.taken 0x21 arg).takeReleaseLocks := by
  have hc : commandOf 0x21 = some .releaseLocks := rfl
  have havail : Command.available .releaseLocks s.mode = true := (releaseLocks_available_iff s.mode).2 hm
  have hcarried := s.carried_out 0x21 arg .releaseLocks hr ha he hc (by decide) havail rfl arg.isLt
  have hidle : ((s.taken 0x21 arg).takeReleaseLocks).engine = .idle := he
  exact hcarried.trans (State.settle_idle _ hidle)

/-- Settles O16: one row of the rule each for an EXECUTING engine, for mode OFFLINE and for a command that is carried out. -/
theorem releaseLocksResult : Obligations.ReleaseLocksResult := by
  intro arg s hr ha
  rw [exec_releaseLocks]
  have hc : commandOf 0x21 = some .releaseLocks := rfl
  refine ⟨fun long he hf => ?busy, fun he hm => ?notAvailable, fun he hm => ?done⟩
  case busy => rw [s.turned_away 0x21 arg long hr ha he hf (by decide)]
  case notAvailable =>
    have hm' : Command.available .releaseLocks s.mode = false := by
      rw [Bool.eq_false_iff, Ne, releaseLocks_available_iff, not_not, hm]
    rw [s.not_available 0x21 arg .releaseLocks hr ha he hc (by decide) hm', hm]
    rfl
  case done => rw [s.releaseLocks_carried_out arg hr ha he hm, s.takeReleaseLocks_taken]

end Sys2Proof.Machine
end

section
/-! PROOF. CLEAR n (R126) and the END step (R116). -/

namespace Sys2Proof.Machine

/-! ### CLEAR -/

/-- The CLEAR row is the command word 14h with its argument. -/
theorem exec_clear (arg : Byte) (s : State) : exec (.clear arg) s = .next (s.giveCommand 0x14 arg) := rfl

/-- With the engine IDLE and a lane for argument, CLEAR is carried out in every mode and while frozen (R149, R152), and no long
command is left to finish. -/
theorem State.clear_carried_out (s : State) (n : Fin 4) (arg : Byte) (hr : s.ready = true) (ha : AreaLaws s)
    (he : s.engine = .idle) (hn : arg.toNat = n.val) : s.giveCommand 0x14 arg = (s.taken 0x14 arg).takeClear arg := by
  have hc : commandOf 0x14 = some .clear := rfl
  have hbound : arg.toNat < Command.argBound .clear := hn ▸ n.isLt
  have hidle : ((s.taken 0x14 arg).takeClear arg).engine = .idle := by
    unfold State.takeClear
    dsimp only
    split <;> exact he
  exact (s.carried_out 0x14 arg .clear hr ha he hc (by decide) rfl rfl hbound).trans (State.settle_idle _ hidle)

/-- Entry into STOPPED by a cause that raises no DONE(n) (R124). -/
theorem State.enterStopped_silent (s : State) (n : Fin 4) :
    s.enterStopped n false = s.setLane n ((s.lane n).restAs .stopped) := rfl

/-- CLEAR stops a FAULTED lane, clears its last error and raises no event (R126). -/
theorem State.takeClear_faulted (s : State) (arg : Byte) (h : (s.lane (laneOf arg)).state = .faulted) :
    s.takeClear arg = (s.setLane (laneOf arg)
        { (s.lane (laneOf arg)).restAs .stopped with lastError := LastError.clear }).setResult 0x14 .done (argWord arg) := by
  unfold State.takeClear
  dsimp only
  rw [if_pos h, State.enterStopped_silent, State.lane_setLane_same, State.setLane_setLane]
  rfl

/-- CLEAR of a lane that is not FAULTED is answered STATE and touches no lane (R126). -/
theorem State.takeClear_not_faulted (s : State) (arg : Byte) (h : (s.lane (laneOf arg)).state ≠ .faulted) :
    s.takeClear arg = s.setResult 0x14 .state (argWord arg) := by
  unfold State.takeClear
  dsimp only
  rw [if_neg h]
  rfl

/-- Settles O14, by whether the lane that the argument names is FAULTED. -/
theorem clearResult : Obligations.ClearResult := by
  intro n arg s hr he ha hn
  rw [exec_clear, s.clear_carried_out n arg hr ha he hn]
  obtain rfl : laneOf arg = n := laneOf_eq arg n hn
  refine ⟨fun hf => ?faulted, fun hf => ?other⟩
  case faulted =>
    rw [(s.taken 0x14 arg).takeClear_faulted arg hf]
    rfl
  case other =>
    rw [(s.taken 0x14 arg).takeClear_not_faulted arg hf]
    rfl

/-! ### The end of a cycle -/

/-- The first two rows of R116: a stop flag or start mode ONCE stops the lane with DONE(n). -/
theorem State.endCycle_stops (s : State) (n : Fin 4)
    (h : (s.lane n).stopAtCycleEnd = true ∨ (s.lane n).stopAtStepEnd = true ∨ (s.lane n).startMode = .once) :
    s.endCycle n = s.enterStopped n true := by
  unfold State.endCycle
  dsimp only
  rcases h with hcycle | hstep | honce
  · rw [if_pos (by rw [hcycle, Bool.true_or])]
  · rw [if_pos (by rw [hstep, Bool.or_true])]
  · rw [if_pos honce, ite_self]

/-- The third row of R116: an owed start is used up by the next cycle start. -/
theorem State.endCycle_begins_owed (s : State) (n : Fin 4) (hcycle : (s.lane n).stopAtCycleEnd = false)
    (hstep : (s.lane n).stopAtStepEnd = false) (honce : (s.lane n).startMode ≠ .once) (howed : (s.lane n).startOwed = true) :
    s.endCycle n = s.setLane n { (s.lane n).atCycleStart with startOwed := false } := by
  unfold State.endCycle
  dsimp only
  rw [if_neg (by rw [hcycle, hstep]; decide), if_neg honce, if_pos howed, State.startCycle_eq, State.lane_setLane_same,
    State.setLane_setLane]
  rfl

/-- The last row of R116: with nothing to stop it and no start owed the lane waits. -/
theorem State.endCycle_waits (s : State) (n : Fin 4) (hcycle : (s.lane n).stopAtCycleEnd = false)
    (hstep : (s.lane n).stopAtStepEnd = false) (honce : (s.lane n).startMode ≠ .once)
    (howed : (s.lane n).startOwed = false) :
    s.endCycle n = s.setLane n { s.lane n with state := .waiting, work := .none } := by
  unfold State.endCycle
  dsimp only
  rw [if_neg (by rw [hcycle, hstep]; decide), if_neg honce, if_neg (by rw [howed]; decide)]

/-! ### END -/

/-- The record 7000h, 0, 0, 0 is END in every start mode (R83, R84). -/
theorem decodeStep_end (mode : StartMode) :
    decodeStep { w0 := 0x7000, w1 := 0, w2 := 0, w3 := 0 } mode = some .finish := rfl

/-- END names no window, so the checks of R85 leave it as it is. -/
theorem State.checkedStep_end (s : State) (n : Fin 4) (q : Quad) (h : decodeStep q (s.lane n).startMode = some .finish) :
    s.checkedStep n q = some .finish := by
  unfold State.checkedStep
  rw [h]

/-- A granted fetch of END: the record is copied into the lane, its cycle ends, and the burst holds the port (R80, R103). -/
theorem exec_stepFetchGrant_end (s : State) (n : Fin 4) (q : Quad) (hg : s.grantable = some (.fetch n))
    (hq : Memory.readQuad s.mem (s.lane n).stepAddr = q) (h : decodeStep q (s.lane n).startMode = some .finish) :
    exec .stepFetchGrant s = .next ((((s.countGrant (.fetch n)).setLane n
      { s.lane n with step := some q, entry := none, work := .none }).endCycle n).holdPort (.fetch n) 4 []).settle := by
  have hexec : exec .stepFetchGrant s = .next s.atGrant.stepFetchGrant.settle := rfl
  rw [hexec, s.atGrant_grantable _ hg, s.stepFetchGrant_eq n q hg hq, s.checkedStep_end n q h]
  rfl

/-- Settles O32, row by row of R116. -/
theorem endStepResult : Obligations.EndStepResult := by
  intro n l s hg hq hl
  rw [exec_stepFetchGrant_end s n _ hg hq (decodeStep_end _), ← hl]
  have hlane : ((s.countGrant (.fetch n)).setLane n l).lane n = l := State.lane_setLane_same _ n l
  refine ⟨fun hstop => ?stops, fun hcycle hstep honce howed => ?owed, fun hcycle hstep honce howed => ?waits⟩
  case stops =>
    rw [State.endCycle_stops _ n (by rw [hlane]; exact hstop), State.enterStopped_done, hlane, State.setLane_lanes,
      Four.set_set]
    rfl
  case owed =>
    rw [State.endCycle_begins_owed _ n (by rw [hlane]; exact hcycle) (by rw [hlane]; exact hstep) (by rw [hlane]; exact honce)
      (by rw [hlane]; exact howed), hlane, State.setLane_setLane]
    rfl
  case waits =>
    have hwork : l.work = .none := by rw [hl]
    rw [State.endCycle_waits _ n (by rw [hlane]; exact hcycle) (by rw [hlane]; exact hstep) (by rw [hlane]; exact honce)
      (by rw [hlane]; exact howed), hlane, State.setLane_setLane, ← hwork]
    rfl

end Sys2Proof.Machine
end

section
/-! PROOF. The IRQ# output (R174), read from the written cause, the pending set and the enable set. -/

namespace Sys2Proof.Machine

/-! ### The enable set -/

/-- Bits 0 to 15 of the enable set are event enable A, the bits above them event enable B (R167). -/
theorem DeviceSettings.getLsbD_enables (d : DeviceSettings) (j : Nat) :
    d.enables.getLsbD j = if j < 16 then d.enableA.getLsbD j else d.enableB.getLsbD (j - 16) := by
  unfold DeviceSettings.enables
  rw [BitVec.getLsbD_append]

/-- Event c is enabled by bit c - 1 of word A for the codes up to 16 and by bit c - 17 of word B from 17 on (R167). -/
theorem DeviceSettings.enables_code_iff (d : DeviceSettings) (c : Nat) :
    d.enables.getLsbD (c - 1) = true ↔
      (c ≤ 16 ∧ d.enableA.getLsbD (c - 1) = true) ∨ (17 ≤ c ∧ d.enableB.getLsbD (c - 17) = true) := by
  rw [d.getLsbD_enables]
  rcases Nat.lt_or_ge 16 c with hB | hA
  · have hbit : ¬ c - 1 < 16 := by omega
    have hindex : c - 1 - 16 = c - 17 := by omega
    have hnotA : ¬ c ≤ 16 := by omega
    simp [hbit, hindex, hnotA, Nat.succ_le_of_lt hB]
  · have hbit : c - 1 < 16 := by omega
    have hnotB : ¬ 17 ≤ c := by omega
    simp [hbit, hA, hnotB]

/-! ### IRQ# -/

/-- Outside the phase *running*, which is while a reset holds the part, IRQ# is released. -/
theorem State.irqAsserted_in_reset (s : State) (h : s.phase ≠ .running) : s.irqAsserted = false := by
  unfold State.irqAsserted
  rw [beq_false_of_ne h, Bool.false_and, Bool.false_and]

/-- In the phase *running* IRQ# shows whether the last-written cause names an event that is both pending and enabled. -/
theorem State.irqAsserted_running_iff (s : State) (h : s.phase = .running) :
    s.irqAsserted = true ↔
      s.lastCause ≠ 0 ∧ s.isPending s.lastCause = true ∧ s.settings.enables.getLsbD (s.lastCause - 1) = true := by
  unfold State.irqAsserted State.isPending
  simp only [h, beq_self_eq_true, Bool.true_and, BitVec.getLsbD_and, Bool.and_eq_true, bne_iff_ne]

/-- Settles O43: during reset by the phase alone, in the phase *running* by the word of the enable set that holds the bit. The
bound on the last-written cause is not needed, since word B has no bit for a code above 19. -/
theorem interruptLine : Obligations.InterruptLine := by
  intro s
  refine ⟨s.irqAsserted_in_reset, fun hrun _ => ?running⟩
  case running => rw [s.irqAsserted_running_iff hrun, s.settings.enables_code_iff]

end Sys2Proof.Machine
end

section
/-! PROOF. One step, row by row: what a predicate on states has to survive so that every step keeps it. Each law of chapter
section "what every step keeps" is proved by giving these few cases. -/

namespace Sys2Proof.Machine

/-! ### The port after a burst -/

theorem State.endBurst_port (s : State) : s.endBurst.port = none := by
  cases h : s.port <;> simp [State.endBurst, h]

theorem EngineFrame.port {s t : State} (h : EngineFrame s t) : t.port = s.port := by
  unfold EngineFrame at h
  rw [h]

theorem EngineFrame.arbiter {s t : State} (h : EngineFrame s t) : t.arbiter = s.arbiter := by
  unfold EngineFrame at h
  rw [h]

theorem State.settle_port (s : State) : s.settle.port = s.port := (EngineFrame.settle s).port

theorem State.settle_arbiter (s : State) : s.settle.arbiter = s.arbiter := (EngineFrame.settle s).arbiter

/-- The end of a capture burst frees the port; what follows it is the lane's. -/
theorem State.captureBurstEnd_cases (s : State) :
    s.captureBurstEnd = s ∧ (∀ b ∈ s.port, ∀ n, b.user ≠ .capture n)
    ∨ ∃ n len ws done, s.port = some { user := .capture n, length := len, writes := ws, done := done } ∧
      (s.captureBurstEnd = s.endBurst ∨ ∃ sel, (s.lane n).work = .capturing ∧ (s.lane n).selection = some sel ∧
        s.captureBurstEnd = s.endBurst.requestCall n
          { verb := .put, node := sel.nodeOf (s.lane n).position, words := (s.lane n).outbound, requested := 0,
            exact := false }) := by
  unfold State.captureBurstEnd
  split
  case h_1 n len ws done hport =>
    refine Or.inr ⟨n, len, ws, done, hport, ?_⟩
    have hlane : s.endBurst.lane n = s.lane n := by simp [State.lane]
    dsimp only
    rw [hlane]
    split
    case h_1 sel hwork hsel => exact Or.inr ⟨sel, hwork, hsel, rfl⟩
    case h_2 => exact Or.inl rfl
  case h_2 hother =>
    refine Or.inl ⟨rfl, fun b hb n hn => ?_⟩
    obtain ⟨user, len, ws, done⟩ := b
    cases hn
    exact hother n len ws done hb

/-- The end of a commit burst: the words are in memory, the port is free and the commit of the lane's entry is resolved. -/
theorem State.commitBurstEnd_cases (s : State) :
    s.commitBurstEnd = s ∧ (∀ b ∈ s.port, ∀ n, b.user ≠ .commit n)
    ∨ ∃ n len ws done, s.port = some { user := .commit n, length := len, writes := ws, done := done } ∧
      (s.commitBurstEnd = s.endBurst ∨ ∃ e, (s.lane n).work = .committing e ∧
        s.commitBurstEnd = s.endBurst.commitResolved n e) := by
  unfold State.commitBurstEnd
  split
  case h_1 n len ws done hport =>
    refine Or.inr ⟨n, len, ws, done, hport, ?_⟩
    split
    case h_1 e hwork => exact Or.inr ⟨e, hwork, rfl⟩
    case h_2 => exact Or.inl rfl
  case h_2 hother =>
    refine Or.inl ⟨rfl, fun b hb n hn => ?_⟩
    obtain ⟨user, len, ws, done⟩ := b
    cases hn
    exact hother n len ws done hb

/-- The end of a drain burst: the words are in memory, the port is free, and the slot is empty. -/
theorem State.drainBurstEnd_cases (s : State) :
    s.drainBurstEnd = s ∧ (∀ b ∈ s.port, ∀ n, b.user ≠ .drain n)
    ∨ ∃ n len ws done, s.port = some { user := .drain n, length := len, writes := ws, done := done } ∧
      s.drainBurstEnd = (s.endBurst.dropSlot n).retryHeld n := by
  unfold State.drainBurstEnd
  split
  case h_1 n len ws done hport => exact Or.inr ⟨n, len, ws, done, hport, rfl⟩
  case h_2 hother =>
    refine Or.inl ⟨rfl, fun b hb n hn => ?_⟩
    obtain ⟨user, len, ws, done⟩ := b
    cases hn
    exact hother n len ws done hb

/-- The end of a command table read: the port is free, and after the last burst of a load the checks follow. -/
theorem State.tableReadEnd_cases (s : State) :
    s.tableReadEnd = s ∧ (∀ b ∈ s.port, b.user ≠ .tableRead)
    ∨ ∃ len ws done, s.port = some { user := .tableRead, length := len, writes := ws, done := done } ∧
      (s.tableReadEnd = s.endBurst
      ∨ (∃ staging, s.engine = .executing (.loadSettings staging) ∧ 9 ≤ staging.length
          ∧ s.tableReadEnd = s.endBurst.checkSettings staging)
      ∨ ∃ staging, s.engine = .executing (.loadWindows staging) ∧ 16 ≤ staging.length
          ∧ s.tableReadEnd = s.endBurst.checkWindows staging) := by
  unfold State.tableReadEnd
  split
  case h_1 len ws done hport =>
    refine Or.inr ⟨len, ws, done, hport, ?_⟩
    dsimp only
    rw [State.endBurst_engine]
    split
    case h_1 staging he =>
      split
      case isTrue hlen => exact Or.inr (Or.inl ⟨staging, he, hlen, rfl⟩)
      case isFalse => exact Or.inl rfl
    case h_2 staging he =>
      split
      case isTrue hlen => exact Or.inr (Or.inr ⟨staging, he, hlen, rfl⟩)
      case isFalse => exact Or.inl rfl
    case h_3 => exact Or.inl rfl
  case h_2 hother =>
    refine Or.inl ⟨rfl, fun b hb hn => ?_⟩
    obtain ⟨user, len, ws, done⟩ := b
    cases hn
    exact hother len ws done hb

/-- The checks of LOAD SETTINGS touch neither the port nor the arbiter. -/
theorem State.checkSettings_port (s : State) (staging : List Quad) :
    (s.checkSettings staging).port = s.port ∧ (s.checkSettings staging).arbiter = s.arbiter := by
  unfold State.checkSettings
  split
  · exact ⟨rfl, rfl⟩
  · split <;> exact ⟨rfl, rfl⟩

/-- The checks of LOAD WINDOWS touch neither the port nor the arbiter. -/
theorem State.checkWindows_port (s : State) (image : List Quad) :
    (s.checkWindows image).port = s.port ∧ (s.checkWindows image).arbiter = s.arbiter := by
  unfold State.checkWindows
  split
  · exact ⟨rfl, rfl⟩
  · split
    · exact ⟨rfl, rfl⟩
    · have h := (EngineFrame.installTable s (tableOfImage image)).trans (EngineFrame.finishLong _ (Command.code .loadWindows) .done 0)
      exact ⟨h.port, h.arbiter⟩

theorem State.retryHeld_port (s : State) (n : Fin 4) : (s.retryHeld n).port = s.port := (LaneFrame.retryHeld s n).port

/-- A burst that has run to its end has left the port free and the arbiter as it was (R139, R140). -/
theorem State.finishBurst_port (s : State) : s.finishBurst.port = none ∧ s.finishBurst.arbiter = s.arbiter := by
  unfold State.finishBurst
  split
  case h_2 hport => exact ⟨hport, rfl⟩
  case h_1 b hport =>
    split
    case h_1 n huser =>
      rw [State.settle_port, State.settle_arbiter]
      obtain ⟨_, hno⟩ | ⟨m, _, _, _, _, heq | ⟨sel, _, _, heq⟩⟩ := s.captureBurstEnd_cases
      · exact absurd huser (hno b hport n)
      · rw [heq]; exact ⟨s.endBurst_port, s.endBurst_arbiter⟩
      · rw [heq]; exact ⟨s.endBurst_port, s.endBurst_arbiter⟩
    case h_2 n huser =>
      rw [State.settle_port, State.settle_arbiter]
      obtain ⟨_, hno⟩ | ⟨m, _, _, _, _, heq | ⟨e, _, heq⟩⟩ := s.commitBurstEnd_cases
      · exact absurd huser (hno b hport n)
      · rw [heq]; exact ⟨s.endBurst_port, s.endBurst_arbiter⟩
      · have hframe := LaneFrame.commitResolved s.endBurst m e
        rw [heq, hframe.port, hframe.arbiter]
        exact ⟨s.endBurst_port, s.endBurst_arbiter⟩
    case h_3 n huser =>
      rw [State.settle_port, State.settle_arbiter]
      obtain ⟨_, hno⟩ | ⟨m, _, _, _, _, heq⟩ := s.drainBurstEnd_cases
      · exact absurd huser (hno b hport n)
      · have hframe := LaneFrame.retryHeld (s.endBurst.dropSlot m) m
        rw [heq, hframe.port, hframe.arbiter]
        exact ⟨s.endBurst_port, s.endBurst_arbiter⟩
    case h_4 huser =>
      rw [State.settle_port, State.settle_arbiter]
      obtain ⟨_, hno⟩ | ⟨_, _, _, _, heq | ⟨staging, _, _, heq⟩ | ⟨staging, _, _, heq⟩⟩ := s.tableReadEnd_cases
      · exact absurd huser (hno b hport)
      · rw [heq]; exact ⟨s.endBurst_port, s.endBurst_arbiter⟩
      · rw [heq, (State.checkSettings_port _ _).1, (State.checkSettings_port _ _).2]
        exact ⟨s.endBurst_port, s.endBurst_arbiter⟩
      · rw [heq, (State.checkWindows_port _ _).1, (State.checkWindows_port _ _).2]
        exact ⟨s.endBurst_port, s.endBurst_arbiter⟩
    all_goals exact ⟨s.endBurst_port, s.endBurst_arbiter⟩

/-! ### The grants -/

theorem Arbiter.served_fairness (a : Arbiter) (src : Source) : (a.served src).fairness = 0 := by
  cases src <;> rfl

/-- A claim that the arbiter chooses is a claim that waits (R137). -/
theorem State.claims_of_firstFrom (s : State) (p : Nat) (ring : List Source) (src : Source)
    (h : s.firstFrom p ring = some src) : s.claims src = true := List.find?_some h

theorem State.claims_of_bridgeChoice (s : State) (src : Source) (h : s.bridgeChoice = some src) : s.claims src = true := by
  unfold State.bridgeChoice at h
  simp only [Option.or_eq_some_iff] at h
  rcases h with h | ⟨-, h | ⟨-, h | ⟨-, h | ⟨-, h⟩⟩⟩⟩ <;> exact s.claims_of_firstFrom _ _ _ h

/-- A claim that the arbiter grants now waits, at a free port and with the part out of reset. -/
theorem State.claims_of_grantable (s : State) (src : Source) (h : s.grantable = some src) :
    s.claims src = true ∧ s.phase = .running ∧ s.port = none := by
  have hport := s.port_of_grantable src h
  unfold State.grantable at h
  split at h
  · have hc := s.claims_of_bridgeChoice src h
    refine ⟨hc, ?_, hport⟩
    simp only [State.claims, Bool.and_eq_true, beq_iff_eq] at hc
    exact hc.1.1
  · cases h

theorem State.work_of_commit_grantable (s : State) (n : Fin 4) (h : s.grantable = some (.commit n)) :
    ∃ e, (s.lane n).work = .commitClaim e := by
  have hc := (s.claims_of_grantable _ h).1
  simp only [State.claims, Bool.and_eq_true] at hc
  have hw := hc.2
  split at hw
  · rename_i e he; exact ⟨e, he⟩
  · cases hw

theorem State.work_of_capture_grantable (s : State) (n : Fin 4) (h : s.grantable = some (.capture n)) :
    (s.lane n).work = .captureClaim := by
  have hc := (s.claims_of_grantable _ h).1
  simp only [State.claims, Bool.and_eq_true, beq_iff_eq] at hc
  exact hc.2

theorem State.work_of_fetch_grantable (s : State) (n : Fin 4) (h : s.grantable = some (.fetch n)) :
    (s.lane n).work = .fetchClaim := by
  have hc := (s.claims_of_grantable _ h).1
  simp only [State.claims, Bool.and_eq_true, beq_iff_eq] at hc
  exact hc.2

theorem State.engine_of_table_grantable (s : State) (h : s.grantable = some .table) :
    ∃ staging, s.engine = .executing (.loadSettings staging) ∨ s.engine = .executing (.loadWindows staging) := by
  have hc := (s.claims_of_grantable _ h).1
  simp only [State.claims, Bool.and_eq_true] at hc
  have hw := hc.2
  unfold State.tableClaim at hw
  split at hw
  · rename_i q he; exact ⟨q, Or.inl he⟩
  · rename_i q he; exact ⟨q, Or.inr he⟩
  · cases hw

theorem State.choice_of_status_grantable (s : State) (h : s.grantable = some .status) : ∃ i, s.statusChoice = some i := by
  have hc := (s.claims_of_grantable _ h).1
  simp only [State.claims, Bool.and_eq_true] at hc
  exact Option.isSome_iff_exists.1 hc.2

theorem State.decideCommit_arbiter (s : State) (n : Fin 4) (e : HoldEntry) : (s.decideCommit n e).arbiter = s.arbiter := by
  unfold State.decideCommit
  dsimp only
  split
  · split
    · exact (LaneFrame.commitResolved _ n e).arbiter
    · split
      · exact (LaneFrame.commitResolved _ n e).arbiter
      · rfl
  · split <;> rfl

/-- A bridge grant clears the fairness count (R140). -/
theorem State.runGrant_fairness (s : State) (src : Source) (h : s.grantable = some src) : s.runGrant.arbiter.fairness = 0 := by
  cases src with
  | commit n =>
    obtain ⟨e, he⟩ := s.work_of_commit_grantable n h
    have hgrant : s.commitGrant = (s.countGrant (.commit n)).decideCommit n e := by simp only [State.commitGrant, h, he]
    simp only [State.runGrant, h, State.settle_arbiter, hgrant, State.decideCommit_arbiter, State.countGrant_arbiter,
      Arbiter.served_fairness]
  | drain n =>
    have hgrant : s.drainGrant.arbiter = s.arbiter.served (.drain n) := by
      simp only [State.drainGrant, h]
      split
      · split <;> rfl
      · rfl
    simp only [State.runGrant, h, State.settle_arbiter, hgrant, Arbiter.served_fairness]
  | capture n =>
    have hgrant : s.captureGrant.arbiter = s.arbiter.served (.capture n) := by
      simp only [State.captureGrant, h]
      split
      · simp
      · rfl
    simp only [State.runGrant, h, State.settle_arbiter, hgrant, Arbiter.served_fairness]
  | fetch n =>
    have hgrant : s.stepFetchGrant.arbiter = s.arbiter.served (.fetch n) := by
      simp only [State.stepFetchGrant, h]
      exact (LaneFrame.fetchStep _ n).arbiter
    simp only [State.runGrant, h, State.settle_arbiter, hgrant, Arbiter.served_fairness]
  | table =>
    obtain ⟨staging, he | he⟩ := s.engine_of_table_grantable h <;>
      simp [State.runGrant, h, State.settle_arbiter, State.tableReadGrant, he, Arbiter.served_fairness]
  | status =>
    obtain ⟨i, hi⟩ := s.choice_of_status_grantable h
    simp [State.runGrant, h, State.settle_arbiter, State.statusWriteGrant, hi, State.writeStatus, Arbiter.served_fairness]

/-- An access is granted only where the fairness count can still move up (R140). -/
def State.canCount (s : State) : Prop := s.claimWaiting = true → s.arbiter.fairness < Config.fairnessLimit

theorem State.canCount_of_accessGrantable (s : State) (h : s.accessGrantable = true) : s.canCount := by
  intro hc
  simp only [State.accessGrantable, hc, Bool.not_true, Bool.false_or, Bool.and_eq_true, decide_eq_true_eq] at h
  exact h.2

/-- What an access waits for leaves the arbiter free to grant it (R140, R141). -/
theorem State.canCount_clearWay (s : State) : s.clearWay.canCount := by
  unfold State.clearWay
  dsimp only
  split
  case isTrue h => exact State.canCount_of_accessGrantable _ h
  case isFalse h =>
    intro _
    have hport := s.finishBurst_port.1
    rw [(State.finishBurst_port _).2]
    simp only [State.accessGrantable, hport, Option.isNone_none, Bool.true_and, Bool.or_eq_true, Bool.not_eq_true',
      decide_eq_true_eq, not_or, Bool.not_eq_false, not_lt] at h
    obtain ⟨hclaim, hfair⟩ := h
    obtain ⟨src, hsrc⟩ := Option.isSome_iff_exists.1 hclaim
    have hgrant : s.finishBurst.grantable = some src := by
      simp only [State.grantable, hport, Option.isNone_none, hfair, decide_true, Bool.or_true, Bool.and_true, if_true, hsrc]
    rw [State.runGrant_fairness _ src hgrant]
    decide

/-! ### The rows of a lane -/

/-- What a row about the call, the timers or the trigger of lane n makes of a state, before a long command finishes. -/
inductive LaneRow (n : Fin 4) (s : State) : State → Prop where
  | callBegin : LaneRow n s (s.callBegin n)
  | replyReceived (w : Word) (p : Bool) : LaneRow n s (s.replyReceived n w p)
  | dataWordReceived (w : Word) (p : Bool) : LaneRow n s (s.dataWordReceived n w p)
  | replyWaitTimeout : LaneRow n s (s.replyWaitTimeout n)
  | dataWaitTimeout : LaneRow n s (s.dataWaitTimeout n)
  | broadcastTailEnd : LaneRow n s (s.broadcastTailEnd n)
  | abortMarkEnd : LaneRow n s (s.abortMarkEnd n)
  | periodTick : LaneRow n s (s.periodTick n)
  | waitDelayExpiry : LaneRow n s (s.waitDelayExpiry n)
  | pulseRunOut : LaneRow n s (s.pulseRunOut n)
  | edgeAtLane : LaneRow n s (s.edgeAtLane n)

theorem LaneRow.laneFrame {n : Fin 4} {s t : State} (h : LaneRow n s t) : LaneFrame n s t := by
  cases h with
  | callBegin => exact LaneFrame.callBegin s n
  | replyReceived w p => exact LaneFrame.replyReceived s n w p
  | dataWordReceived w p => exact LaneFrame.dataWordReceived s n w p
  | replyWaitTimeout => exact LaneFrame.replyWaitTimeout s n
  | dataWaitTimeout => exact LaneFrame.dataWaitTimeout s n
  | broadcastTailEnd => exact LaneFrame.broadcastTailEnd s n
  | abortMarkEnd => exact LaneFrame.abortMarkEnd s n
  | periodTick => exact LaneFrame.periodTick s n
  | waitDelayExpiry => exact LaneFrame.waitDelayExpiry s n
  | pulseRunOut => exact LaneFrame.pulseRunOut s n
  | edgeAtLane => exact LaneFrame.edgeAtLane s n

/-! ### The cases of a step -/

/-- What a predicate on states has to survive so that every step keeps it: the queue and the upstream port, the grant of an
access, the ends of bursts and the grants of bridge claims, the finish of a long command, the rows of a lane, the locks, the
resets and time. -/
structure Kept (P : State → Prop) : Prop where
  queue : ∀ s q, P s → P { s with pending := q }
  wait : ∀ s a, P s → P { s with upstream := some a }
  atGrant : ∀ s, P s → P s.atGrant
  settle : ∀ s, P s → P s.settle
  grantAccess : ∀ s a, s.canCount → P s → P (s.grantAccess a)
  selfEnd : ∀ s b, s.port = some b → b.user.endsItself = true → P s → P s.endBurst
  captureBurstEnd : ∀ s, P s → P s.captureBurstEnd
  commitBurstEnd : ∀ s, P s → P s.commitBurstEnd
  drainBurstEnd : ∀ s, P s → P s.drainBurstEnd
  tableReadEnd : ∀ s, P s → P s.tableReadEnd
  stepFetchGrant : ∀ s, P s → P s.stepFetchGrant
  captureGrant : ∀ s, P s → P s.captureGrant
  commitGrant : ∀ s, P s → P s.commitGrant
  drainGrant : ∀ s, P s → P s.drainGrant
  tableReadGrant : ∀ s, P s → P s.tableReadGrant
  statusWriteGrant : ∀ s, P s → P s.statusWriteGrant
  laneRow : ∀ n s t, LaneRow n s t → P s → P t
  expireLock : ∀ s w k, P s → P (s.expireLock w k)
  hardResetAssert : ∀ s late, P s → P (s.hardResetAssert late)
  hardResetRelease : ∀ s straps, P s → P (s.hardResetRelease straps)
  powerOnReset : ∀ s straps e, P s → P (s.powerOnReset straps e)
  advance : ∀ s, P s → P s.advance

namespace Kept

variable {P : State → Prop}

theorem finishBurst (h : Kept P) (s : State) (hs : P s) : P s.finishBurst := by
  unfold State.finishBurst
  split
  case h_2 => exact hs
  case h_1 b hport =>
    split
    case h_1 => exact h.settle _ (h.captureBurstEnd s hs)
    case h_2 => exact h.settle _ (h.commitBurstEnd s hs)
    case h_3 => exact h.settle _ (h.drainBurstEnd s hs)
    case h_4 => exact h.settle _ (h.tableReadEnd s hs)
    case h_5 n huser => exact h.selfEnd s b hport (by rw [huser]; rfl) hs
    case h_6 huser => exact h.selfEnd s b hport (by rw [huser]; rfl) hs

theorem runGrant (h : Kept P) (s : State) (hs : P s) : P s.runGrant := by
  unfold State.runGrant
  split
  · exact h.settle _ (h.commitGrant s hs)
  · exact h.settle _ (h.drainGrant s hs)
  · exact h.settle _ (h.captureGrant s hs)
  · exact h.settle _ (h.stepFetchGrant s hs)
  · exact h.settle _ (h.tableReadGrant s hs)
  · exact h.settle _ (h.statusWriteGrant s hs)
  · exact hs

theorem clearWay (h : Kept P) (s : State) (hs : P s) : P s.clearWay := by
  unfold State.clearWay
  dsimp only
  split
  · exact h.finishBurst s hs
  · exact h.finishBurst _ (h.runGrant _ (h.finishBurst s hs))

theorem serve (h : Kept P) (s : State) (a : Access) (hs : P s) : P (s.serve a) := by
  unfold State.serve
  split
  case isTrue hg => exact h.grantAccess s a (s.canCount_of_accessGrantable hg) hs
  case isFalse => exact h.grantAccess _ a s.canCount_clearWay (h.clearWay s hs)

theorem serveWaiting (h : Kept P) (s : State) (a : Access) (hs : P s) : P (s.serveWaiting a) := by
  unfold State.serveWaiting
  split
  · split
    · exact hs
    · exact h.settle _ (h.serve s _ hs)
  · exact hs

theorem giveAccess (h : Kept P) (s : State) (a : Access) (hs : P s) : P (s.giveAccess a) :=
  h.settle _ (h.serve _ a (h.serveWaiting s a hs))

theorem arrive (h : Kept P) (s : State) (a : Access) (hs : P s) : P (s.arrive a) := by
  unfold State.arrive
  dsimp only
  split
  case isTrue hg => exact h.settle _ (h.grantAccess _ a (State.canCount_of_accessGrantable _ hg) (h.serveWaiting s a hs))
  case isFalse => exact h.wait _ a (h.serveWaiting s a hs)

theorem triggerEdge (h : Kept P) (s : State) (rising : Bool) (hs : P s) : P (s.triggerEdge rising) := by
  have hlanes : ∀ (ns : List (Fin 4)) (t : State), P t → P (ns.foldl State.edgeAtLane t) := by
    intro ns
    induction ns with
    | nil => exact fun _ ht => ht
    | cons n rest ih => exact fun t ht => ih _ (h.laneRow n t _ .edgeAtLane ht)
  unfold State.triggerEdge
  split
  · exact hlanes laneList s hs
  · exact hs

/-- Every row of the table keeps P. -/
theorem exec (h : Kept P) (i : Instr) (s t : State) (hs : P s) (ht : Machine.exec i s = .next t) : P t := by
  cases i <;> cases ht
  case stepFetchGrant => exact h.settle _ (h.stepFetchGrant _ (h.atGrant s hs))
  case captureGrant => exact h.settle _ (h.captureGrant _ (h.atGrant s hs))
  case captureBurstEnd => exact h.settle _ (h.captureBurstEnd s hs)
  case commitGrant => exact h.settle _ (h.commitGrant _ (h.atGrant s hs))
  case commitBurstEnd => exact h.settle _ (h.commitBurstEnd s hs)
  case drainGrant => exact h.settle _ (h.drainGrant _ (h.atGrant s hs))
  case drainBurstEnd => exact h.settle _ (h.drainBurstEnd s hs)
  case commandTableReadGrant => exact h.settle _ (h.tableReadGrant _ (h.atGrant s hs))
  case commandTableReadEnd => exact h.settle _ (h.tableReadEnd s hs)
  case statusWriteGrant => exact h.settle _ (h.statusWriteGrant _ (h.atGrant s hs))
  case callBegin n => exact h.settle _ (h.laneRow n s _ .callBegin hs)
  case replyReceived n w p => exact h.settle _ (h.laneRow n s _ (.replyReceived w p) hs)
  case dataWordReceived n w p => exact h.settle _ (h.laneRow n s _ (.dataWordReceived w p) hs)
  case replyWaitTimeout n => exact h.settle _ (h.laneRow n s _ .replyWaitTimeout hs)
  case dataWaitTimeout n => exact h.settle _ (h.laneRow n s _ .dataWaitTimeout hs)
  case broadcastTailEnd n => exact h.settle _ (h.laneRow n s _ .broadcastTailEnd hs)
  case abortMarkEnd n => exact h.settle _ (h.laneRow n s _ .abortMarkEnd hs)
  case lockExpiry w k => exact h.settle _ (h.expireLock s w k hs)
  case periodTick n => exact h.settle _ (h.laneRow n s _ .periodTick hs)
  case waitDelayExpiry n => exact h.settle _ (h.laneRow n s _ .waitDelayExpiry hs)
  case pulseRunOut n => exact h.settle _ (h.laneRow n s _ .pulseRunOut hs)
  case triggerEdge rising => exact h.settle _ (h.triggerEdge s rising hs)
  case hardResetAssert late => exact h.hardResetAssert s late hs
  case hardResetRelease straps => exact h.hardResetRelease s straps hs
  case powerOnReset straps e => exact h.powerOnReset s straps e hs
  case accessWait a => exact h.arrive s a hs
  all_goals exact h.giveAccess s _ hs

/-- A predicate that survives each case survives a step. -/
theorem step (h : Kept P) (s t : State) (hs : P s) (ht : Machine.step s = .next t) : P t := by
  unfold Machine.step at ht
  split at ht
  case h_1 c rest _ => exact h.exec c _ t (h.queue s rest hs) ht
  case h_2 =>
    split at ht
    case h_1 c _ => exact h.exec c s t hs ht
    case h_2 => cases ht; exact h.advance s hs

end Kept

end Sys2Proof.Machine
end

section
/-! PROOF. What no operation on a lane changes of it: its settings copy stays, and its step count stays within the budget (R81,
R129). -/

namespace Sys2Proof.Machine

/-- An operation on lane n that keeps the lane's settings copy and the bound of its step count. -/
def LaneKeeps (n : Fin 4) (s t : State) : Prop :=
  LaneFrame n s t ∧ (t.lane n).settings = (s.lane n).settings ∧ ((s.lane n).stepCount ≤ 256 → (t.lane n).stepCount ≤ 256)

namespace LaneKeeps

theorem refl (n : Fin 4) (s : State) : LaneKeeps n s s := ⟨LaneFrame.refl n s, rfl, id⟩

theorem trans {n : Fin 4} {s t u : State} (h : LaneKeeps n s t) (k : LaneKeeps n t u) : LaneKeeps n s u :=
  ⟨h.1.trans k.1, k.2.1.trans h.2.1, fun hs => k.2.2 (h.2.2 hs)⟩

theorem setLane (s : State) (n : Fin 4) (l : Lane) (hl : l.settings = (s.lane n).settings := by rfl)
    (hc : (s.lane n).stepCount ≤ 256 → l.stepCount ≤ 256 := by exact id) : LaneKeeps n s (s.setLane n l) :=
  ⟨LaneFrame.setLane s n l, by rw [State.lane_setLane_same, hl], by rw [State.lane_setLane_same]; exact hc⟩

theorem raise (n : Fin 4) (s : State) (e : Event) : LaneKeeps n s (s.raise e) := ⟨LaneFrame.raise n s e, rfl, id⟩

theorem addChanged (n : Fin 4) (s : State) (w : Fin 16) (k : Nat) : LaneKeeps n s (s.addChanged w k) := by
  unfold State.addChanged
  split
  · exact ⟨⟨rfl, fun _ _ => rfl⟩, rfl, id⟩
  · exact refl n s

theorem fillSets (n : Fin 4) (s : State) (p : Fin 16 → Bool) : LaneKeeps n s (s.fillSets p) :=
  ⟨LaneFrame.fillSets n s p, rfl, id⟩

theorem enterStopped (s : State) (n : Fin 4) (d : Bool) : LaneKeeps n s (s.enterStopped n d) := by
  unfold State.enterStopped
  cases d
  · exact setLane s n _
  · exact (setLane s n _).trans (raise n _ _)

theorem enterFaulted (s : State) (n : Fin 4) : LaneKeeps n s (s.enterFaulted n) :=
  (setLane s n _).trans (raise n _ _)

theorem structuralFault (s : State) (n : Fin 4) (c : ErrorCode) (i : Fin 64) : LaneKeeps n s (s.structuralFault n c i) :=
  (setLane s n _).trans (enterFaulted _ n)

/-- The one place where the step count moves up: within the budget. -/
theorem placeFetch (s : State) (n : Fin 4) (i : Fin 64) : LaneKeeps n s (s.placeFetch n i) := by
  unfold State.placeFetch
  dsimp only
  split
  case isTrue h => exact setLane s n _ (by rfl) fun _ => h
  case isFalse => exact (setLane s n _).trans (structuralFault _ n _ _)

theorem startCycle (s : State) (n : Fin 4) : LaneKeeps n s (s.startCycle n) :=
  (setLane s n _ (by rfl) fun _ => Nat.zero_le _).trans (placeFetch _ n 0)

theorem nextStep (s : State) (n : Fin 4) (i : Nat) : LaneKeeps n s (s.nextStep n i) := by
  unfold State.nextStep
  split
  · exact enterStopped s n true
  · split
    · exact placeFetch s n _
    · exact structuralFault s n _ _

theorem endStep (s : State) (n : Fin 4) : LaneKeeps n s (s.endStep n) := nextStep s n _

theorem endCycle (s : State) (n : Fin 4) : LaneKeeps n s (s.endCycle n) := by
  unfold State.endCycle
  dsimp only
  split
  · exact enterStopped s n true
  · split
    · exact enterStopped s n true
    · split
      · exact (setLane s n _).trans (startCycle _ n)
      · exact setLane s n _

theorem cutWork (s : State) (n : Fin 4) (b : Bool) : LaneKeeps n s (s.cutWork n b) := by
  unfold State.cutWork
  dsimp only
  split
  · split
    · exact (setLane s n _).trans (addChanged n _ _ _)
    · exact setLane s n _
  · exact setLane s n _

theorem cutLane (s : State) (n : Fin 4) (b : Bool) : LaneKeeps n s (s.cutLane n b) := by
  unfold State.cutLane
  split
  · exact (cutWork s n b).trans (enterStopped _ n false)
  · exact refl n s

theorem beginRun (s : State) (n : Fin 4) (m : StartMode) : LaneKeeps n s (s.beginRun n m) := by
  unfold State.beginRun
  dsimp only
  split
  · exact (setLane s n _).trans (fillSets n _ _)
  · exact ((setLane s n _).trans (fillSets n _ _)).trans (startCycle _ n)

theorem startLane (s : State) (n : Fin 4) (m : StartMode) : LaneKeeps n s (s.startLane n m) := by
  unfold State.startLane
  dsimp only
  split
  · exact (cutWork s n true).trans (beginRun _ n m)
  · exact beginRun s n m

theorem requestCall (s : State) (n : Fin 4) (c : Call) : LaneKeeps n s (s.requestCall n c) :=
  setLane s n _ (Lane.requestCall_settings _ c) (by rw [Lane.requestCall_stepCount]; exact id)

theorem takeSend (s : State) (n : Fin 4) (b : Bool) (sel : Selection) (k : Nat) : LaneKeeps n s (s.takeSend n b sel k) := by
  unfold State.takeSend
  dsimp only
  split
  · split
    · exact setLane s n _
    · exact (setLane s n _).trans (endStep _ n)
  · exact setLane s n _

theorem takeFetch (s : State) (n : Fin 4) (b : Bool) (sel : Selection) (k : Nat) : LaneKeeps n s (s.takeFetch n b sel k) :=
  (setLane s n _).trans (requestCall _ n _)

theorem recordDone (s : State) (n : Fin 4) : LaneKeeps n s (s.recordDone n) := by
  unfold State.recordDone
  dsimp only
  split
  · split
    · exact endStep s n
    · exact takeSend s n _ _ _
  · split
    · exact endStep s n
    · exact takeFetch s n _ _ _
  · exact endStep s n

theorem commitResolved (s : State) (n : Fin 4) (e : HoldEntry) : LaneKeeps n s (s.commitResolved n e) := by
  unfold State.commitResolved
  dsimp only
  split
  · exact (setLane s n _).trans (enterFaulted _ n)
  · exact (setLane s n _).trans (recordDone _ n)

theorem carryOut (s : State) (n : Fin 4) (step : Step) : LaneKeeps n s (s.carryOut n step) := by
  cases step with
  | send c sel => exact (setLane s n _).trans (takeSend _ n _ _ _)
  | fetch x sel => exact (setLane s n _).trans (takeFetch _ n _ _ _)
  | inline node words => exact requestCall s n _
  | pulse b =>
    cases b
    · exact (setLane s n _).trans (endStep _ n)
    · exact ((setLane s n _).trans (raise n _ _)).trans (endStep _ n)
  | wait d => exact setLane s n _
  | waitTrigger =>
    simp only [State.carryOut]
    split
    · exact (setLane s n _).trans (endStep _ n)
    · exact setLane s n _
  | jump t => exact nextStep s n _
  | finish => exact endCycle s n

theorem fetchStep (s : State) (n : Fin 4) : LaneKeeps n s (s.fetchStep n) := by
  unfold State.fetchStep
  dsimp only
  split
  · exact (setLane s n _).trans (carryOut _ n _)
  · exact (setLane s n _).trans (structuralFault _ n _ _)

theorem callHandled (s : State) (n : Fin 4) (o : CallOutcome) : LaneKeeps n s (s.callHandled n o) := by
  unfold State.callHandled
  split
  · exact enterFaulted s n
  · exact recordDone s n

theorem endCall (s : State) (n : Fin 4) (c : Call) (o : CallOutcome) (st : Option (BitVec 6)) :
    LaneKeeps n s (s.endCall n c o st) := by
  unfold State.endCall
  dsimp only
  split
  · exact setLane s n _
  · split
    · exact ((setLane s n _).trans (addChanged n _ _ _)).trans (callHandled _ n _)
    · exact (setLane s n _).trans (callHandled _ n _)
  · exact (setLane s n _).trans (callHandled _ n _)

theorem retryHeld (s : State) (n : Fin 4) : LaneKeeps n s (s.retryHeld n) := by
  unfold State.retryHeld
  dsimp only
  split
  · exact setLane s n _
  · exact refl n s

theorem quietLane (s : State) (n : Fin 4) : LaneKeeps n s (s.quietLane n) := by
  unfold State.quietLane
  dsimp only
  split
  · exact enterStopped s n true
  · split <;> first | exact enterStopped s n true | exact setLane s n _
  · split <;> first | exact enterStopped s n true | exact setLane s n _
  · exact refl n s
  · exact refl n s

theorem owe (s : State) (n : Fin 4) : LaneKeeps n s (s.owe n) := (setLane s n _).trans (raise n _ _)

theorem getAccepted (s : State) (n : Fin 4) (c : Call) (w : Word) : LaneKeeps n s (s.getAccepted n c w) := by
  unfold State.getAccepted
  dsimp only
  split
  · exact endCall s n _ _ _
  · exact setLane s n _

/-- Every row of a lane keeps its settings copy and the bound of its step count. -/
theorem laneRow {n : Fin 4} {s t : State} (h : LaneRow n s t) : LaneKeeps n s t := by
  cases h with
  | callBegin =>
    unfold State.callBegin
    dsimp only
    split
    · exact setLane s n _
    · exact refl n s
  | replyReceived w p =>
    unfold State.replyReceived
    dsimp only
    split
    · split
      · split
        · exact endCall s n _ _ _
        · exact endCall s n _ _ _
        · split
          · exact getAccepted s n _ _
          · exact endCall s n _ _ _
      · exact refl n s
    · exact refl n s
  | dataWordReceived w p =>
    unfold State.dataWordReceived
    dsimp only
    split
    · split
      · split
        · exact (setLane s n _).trans (endCall _ n _ _ _)
        · exact setLane s n _
      · exact refl n s
    · exact refl n s
  | replyWaitTimeout =>
    unfold State.replyWaitTimeout
    dsimp only
    split
    · split
      · exact endCall s n _ _ _
      · exact refl n s
    · exact refl n s
  | dataWaitTimeout =>
    unfold State.dataWaitTimeout
    dsimp only
    split
    · exact endCall s n _ _ _
    · exact refl n s
  | broadcastTailEnd =>
    unfold State.broadcastTailEnd
    dsimp only
    split
    · split
      · exact endCall s n _ _ _
      · exact refl n s
    · exact refl n s
  | abortMarkEnd =>
    unfold State.abortMarkEnd
    dsimp only
    split
    · exact setLane s n _
    · exact refl n s
  | periodTick =>
    unfold State.periodTick
    dsimp only
    split
    · exact refl n s
    · split
      · exact (setLane s n _).trans (startCycle _ n)
      · exact (setLane s n _).trans (owe _ n)
      · exact (setLane s n _).trans (owe _ n)
      · exact refl n s
      · exact refl n s
  | waitDelayExpiry =>
    unfold State.waitDelayExpiry
    dsimp only
    split
    · exact (setLane s n _).trans (endStep _ n)
    · exact refl n s
  | pulseRunOut => exact setLane s n _
  | edgeAtLane =>
    unfold State.edgeAtLane
    dsimp only
    split <;> first
      | exact startCycle s n
      | exact owe s n
      | exact setLane s n _
      | exact refl n s
      | (split
         · exact endStep s n
         · exact setLane s n _)

end LaneKeeps

/-! ### What the rows of the arbiter, the bursts and the lanes leave alone -/

/-- t has the window table, the mode, the straps, the locks, the command engine and all settings of s, and no step count beyond
the budget that s has not. -/
structure CoreFrame (s t : State) : Prop where
  table : t.table = s.table
  mode : t.mode = s.mode
  strap : t.strap = s.strap
  locks : t.locks = s.locks
  engine : t.engine = s.engine
  settings : t.settings = s.settings
  laneSettings : ∀ n, (t.lane n).settings = (s.lane n).settings
  stepCount : ∀ n, (s.lane n).stepCount ≤ 256 → (t.lane n).stepCount ≤ 256

namespace CoreFrame

theorem refl (s : State) : CoreFrame s s := ⟨rfl, rfl, rfl, rfl, rfl, rfl, fun _ => rfl, fun _ => id⟩

theorem trans {s t u : State} (h : CoreFrame s t) (k : CoreFrame t u) : CoreFrame s u :=
  ⟨k.table.trans h.table, k.mode.trans h.mode, k.strap.trans h.strap, k.locks.trans h.locks, k.engine.trans h.engine,
    k.settings.trans h.settings, fun n => (k.laneSettings n).trans (h.laneSettings n),
    fun n hn => k.stepCount n (h.stepCount n hn)⟩

theorem of_lane {n : Fin 4} {s t : State} (h : LaneKeeps n s t) : CoreFrame s t := by
  obtain ⟨⟨heq, hother⟩, hset, hcount⟩ := h
  refine ⟨?_, ?_, ?_, ?_, ?_, ?_, fun m => ?_, fun m => ?_⟩
  case refine_7 =>
    by_cases hm : m = n
    · rw [hm, hset]
    · rw [hother m hm]
  case refine_8 =>
    by_cases hm : m = n
    · rw [hm]; exact hcount
    · rw [hother m hm]; exact id
  all_goals rw [heq]

/-- A change of other blocks alone. -/
theorem of_lanes {s t : State} (h1 : t.table = s.table) (h2 : t.mode = s.mode) (h3 : t.strap = s.strap)
    (h4 : t.locks = s.locks) (h5 : t.engine = s.engine) (h6 : t.settings = s.settings) (h7 : t.lanes = s.lanes) :
    CoreFrame s t :=
  ⟨h1, h2, h3, h4, h5, h6, fun n => by simp only [State.lane, h7], fun n => by simp only [State.lane, h7]; exact id⟩

theorem holdPort (s : State) (u : BurstUser) (k : Nat) (ws : List (Addr × Word)) : CoreFrame s (s.holdPort u k ws) :=
  of_lanes rfl rfl rfl rfl rfl rfl rfl

theorem countGrant (s : State) (src : Source) : CoreFrame s (s.countGrant src) := of_lanes rfl rfl rfl rfl rfl rfl rfl

theorem endBurst (s : State) : CoreFrame s s.endBurst := by
  unfold State.endBurst
  split <;> exact of_lanes rfl rfl rfl rfl rfl rfl rfl

theorem atGrant (s : State) : CoreFrame s s.atGrant := of_lanes rfl rfl rfl rfl rfl rfl rfl

theorem removeChanged (s : State) (w : Fin 16) (k : Nat) : CoreFrame s (s.removeChanged w k) := by
  unfold State.removeChanged
  split <;> exact of_lanes rfl rfl rfl rfl rfl rfl rfl

theorem captureBurstEnd (s : State) : CoreFrame s s.captureBurstEnd := by
  obtain ⟨heq, _⟩ | ⟨n, _, _, _, _, heq | ⟨sel, _, _, heq⟩⟩ := s.captureBurstEnd_cases
  · rw [heq]; exact refl s
  · rw [heq]; exact endBurst s
  · rw [heq]; exact (endBurst s).trans (of_lane (LaneKeeps.requestCall _ n _))

theorem commitBurstEnd (s : State) : CoreFrame s s.commitBurstEnd := by
  obtain ⟨heq, _⟩ | ⟨n, _, _, _, _, heq | ⟨e, _, heq⟩⟩ := s.commitBurstEnd_cases
  · rw [heq]; exact refl s
  · rw [heq]; exact endBurst s
  · rw [heq]; exact (endBurst s).trans (of_lane (LaneKeeps.commitResolved _ n e))

theorem drainBurstEnd (s : State) : CoreFrame s s.drainBurstEnd := by
  obtain ⟨heq, _⟩ | ⟨n, _, _, _, _, heq⟩ := s.drainBurstEnd_cases
  · rw [heq]; exact refl s
  · rw [heq]
    have hdrop : CoreFrame s.endBurst (s.endBurst.dropSlot n) := of_lanes rfl rfl rfl rfl rfl rfl rfl
    exact ((endBurst s).trans hdrop).trans (of_lane (LaneKeeps.retryHeld _ n))

theorem stepFetchGrant (s : State) : CoreFrame s s.stepFetchGrant := by
  unfold State.stepFetchGrant
  split
  · exact ((countGrant s _).trans (of_lane (LaneKeeps.fetchStep _ _))).trans (holdPort _ _ _ _)
  · exact refl s

theorem captureGrant (s : State) : CoreFrame s s.captureGrant := by
  unfold State.captureGrant
  dsimp only
  split
  case h_2 => exact refl s
  case h_1 n _ =>
    split
    case h_2 => exact countGrant s _
    case h_1 sel _ =>
      exact (((countGrant s (.capture n)).trans (removeChanged _ _ _)).trans
        (of_lane (LaneKeeps.setLane _ n _ (by simp [State.lane]) (by simp [State.lane])))).trans (holdPort _ _ _ _)

theorem decideCommit (s : State) (n : Fin 4) (e : HoldEntry) : CoreFrame s (s.decideCommit n e) := by
  have hfill : ∀ f, CoreFrame s (s.fillSlot n f) := fun f => of_lanes rfl rfl rfl rfl rfl rfl rfl
  unfold State.decideCommit
  dsimp only
  split
  · split
    · exact (hfill _).trans (of_lane (LaneKeeps.commitResolved _ n e))
    · split
      · exact (hfill _).trans (of_lane (LaneKeeps.commitResolved _ n e))
      · exact of_lane (LaneKeeps.setLane s n _)
  · split
    · have hdrop : CoreFrame s (s.dropSlot n) := of_lanes rfl rfl rfl rfl rfl rfl rfl
      exact (hdrop.trans (of_lane (LaneKeeps.setLane _ n _))).trans (holdPort _ _ _ _)
    · exact (of_lane (LaneKeeps.setLane s n _)).trans (holdPort _ _ _ _)

theorem commitGrant (s : State) : CoreFrame s s.commitGrant := by
  unfold State.commitGrant
  split
  · split
    · exact (countGrant s _).trans (decideCommit _ _ _)
    · exact refl s
  · exact refl s

theorem drainGrant (s : State) : CoreFrame s s.drainGrant := by
  unfold State.drainGrant
  dsimp only
  split
  · split
    · split <;> exact of_lanes rfl rfl rfl rfl rfl rfl rfl
    · exact of_lanes rfl rfl rfl rfl rfl rfl rfl
  · exact refl s

theorem statusWriteGrant (s : State) : CoreFrame s s.statusWriteGrant := by
  unfold State.statusWriteGrant
  split
  · split
    · exact of_lanes rfl rfl rfl rfl rfl rfl rfl
    · exact refl s
  · exact refl s

variable {s t : State}

theorem window (h : CoreFrame s t) (w : Fin 16) : t.window w = s.window w := by simp only [State.window, h.table]

theorem tableActive (h : CoreFrame s t) : t.tableActive = s.tableActive := by simp only [State.tableActive, h.mode]

theorem base (h : CoreFrame s t) : t.base = s.base := by simp only [State.base, h.strap]

end CoreFrame

end Sys2Proof.Machine
end

section
/-! PROOF. A granted access, case by case (R130 to R133, R149): what a predicate has to survive so that every access keeps it; and
the same for predicates that are seen from the tables, the locks, the command engine and the settings alone. -/

namespace Sys2Proof.Machine

/-! ### The grant of an access -/

/-- t differs from s at most in what an access returns, the guard address, *armed*, the result and the pending set. -/
def AnswerFrame (s t : State) : Prop :=
  t = { s with readData := t.readData, guardAddr := t.guardAddr, guardLowMarked := t.guardLowMarked,
               guardHighMarked := t.guardHighMarked, armed := t.armed, result := t.result, resultMarked := t.resultMarked,
               detailMarked := t.detailMarked, events := t.events }

/-- What a predicate has to survive so that every grant of an access keeps it. -/
structure AccessKept (P : State → Prop) : Prop where
  passed : ∀ s, s.canCount → P s → P s.passed
  memory : ∀ s a w sel, P s → P { s with mem := Memory.writeSel s.mem a w sel }
  answer : ∀ s t, AnswerFrame s t → P s → P t
  addChanged : ∀ s a p, s.place a = some p → P s → P (s.addChanged p.window p.record)
  createLock : ∀ s a p, s.place a = some p → (s.window p.window).locking = true → P s → P (s.createLock p.window p.record)
  releaseLock : ∀ s w k, P s → P (s.releaseLock w k)
  carryOut : ∀ s c arg, s.engine = .idle → c.available s.mode = true → arg.toNat < c.argBound → P s →
    P (s.carryOutCommand c arg)

namespace AccessKept

variable {P : State → Prop}

theorem takeCommand (h : AccessKept P) (s : State) (code arg : Byte) (he : s.engine = .idle) (hs : P s) :
    P (s.takeCommand code arg) := by
  have hdisarmed : P { s with armed := false } := h.answer s _ rfl hs
  unfold State.takeCommand
  split
  · exact h.answer _ _ rfl hdisarmed
  case h_2 c _ =>
    have hstart : P (if c = .freezeSecond then s else { s with armed := false }) := by
      split
      · exact hs
      · exact hdisarmed
    have hengine : (if c = .freezeSecond then s else { s with armed := false }).engine = .idle := by
      split <;> exact he
    dsimp only
    generalize (if c = .freezeSecond then s else { s with armed := false } : State) = t at hstart hengine ⊢
    split
    · exact h.answer _ _ rfl hstart
    · split
      · exact h.answer _ _ rfl hstart
      · split
        · exact h.answer _ _ rfl hstart
        · rename_i havail _ hbound
          simp only [Bool.not_eq_true', Bool.not_eq_false] at havail
          exact h.carryOut _ c arg hengine havail (Nat.lt_of_not_le hbound) hstart

theorem receiveCommand (h : AccessKept P) (s : State) (word : Word) (hs : P s) : P (s.receiveCommand word) := by
  unfold State.receiveCommand
  dsimp only
  split
  · split
    · exact h.answer s _ rfl hs
    · exact h.answer s _ rfl hs
  case h_2 he => exact h.takeCommand s _ _ he hs

theorem snoopWrite (h : AccessKept P) (s : State) (a : Access) (hs : P s) : P (s.snoopWrite a) := by
  have htracked : P (match s.place a.addr with
      | some p => s.addChanged p.window p.record
      | none => s) := by
    split
    case h_1 p hp => exact h.addChanged s a.addr p hp hs
    case h_2 => exact hs
  unfold State.snoopWrite
  dsimp only
  split
  · split
    · exact h.receiveCommand _ _ htracked
    · exact htracked
  · exact h.answer _ _ rfl htracked
  · exact h.answer _ _ rfl htracked
  · exact htracked

theorem snoopRead (h : AccessKept P) (s : State) (a : Access) (w : Word) (hs : P s) : P (s.snoopRead a w) := by
  have hlocks : P (match s.place a.addr with
      | some p =>
        if (s.window p.window).locking then
          if p.word = 0 then s.createLock p.window p.record
          else if p.word = (s.window p.window).size - 1 then s.stampRelease p.window p.record else s
        else s
      | none => s) := by
    split
    case h_1 p hp =>
      split
      case isTrue hlocking =>
        split
        · exact h.createLock s a.addr p hp hlocking hs
        · split
          · unfold State.stampRelease
            split
            · exact h.releaseLock s _ _ hs
            · exact hs
          · exact hs
      case isFalse => exact hs
    case h_2 => exact hs
  unfold State.snoopRead
  dsimp only
  split
  · unfold State.clearCause
    dsimp only
    split
    · exact hlocks
    · exact h.answer _ _ rfl hlocks
  · exact hlocks

/-- Every grant of an access keeps P. -/
theorem grantAccess (h : AccessKept P) (s : State) (a : Access) (hcount : s.canCount) (hs : P s) : P (s.grantAccess a) := by
  have hpassed : P s.passed := h.passed s hcount hs
  show P (if a.write then s.passed.grantWrite a else s.passed.grantRead a)
  split
  · unfold State.grantWrite
    split
    · split
      · exact h.answer s.passed _ rfl hpassed
      · exact hpassed
    · split
      · exact h.snoopWrite _ a (h.memory _ _ _ _ hpassed)
      · exact h.memory _ _ _ _ hpassed
  · unfold State.grantRead
    dsimp only
    split
    · exact h.snoopRead _ a _ (h.answer _ _ rfl hpassed)
    · exact h.answer _ _ rfl hpassed

end AccessKept

/-! ### Where a mapped address falls -/

/-- A mapped address lies in a record of an active, used window (R5, R7). -/
theorem State.place_in_window (s : State) (a : Addr) (p : Place) (h : s.place a = some p) :
    s.tableActive = true ∧ (s.window p.window).used = true ∧ p.record < (s.window p.window).count := by
  unfold State.place at h
  split at h
  case isFalse => cases h
  case isTrue hactive =>
    obtain ⟨w, hfind, hp⟩ := Option.map_eq_some_iff.1 h
    have hholds := List.find?_some hfind
    rw [WindowEntry.holds_iff] at hholds
    obtain ⟨hused, hlo, hhi⟩ := hholds
    subst hp
    refine ⟨hactive, hused, ?_⟩
    have hlt : a.toNat - (s.window w).base.toNat < (s.window w).size * (s.window w).count := by
      have := hhi
      unfold WindowEntry.length at this
      omega
    exact Nat.div_lt_of_lt_mul hlt

/-! ### Commands on the tables -/

/-- A command to one lane: it is started, stopped, cut or cleared, or the command is refused, with a result in each case. -/
theorem State.takeStart_core (s : State) (c : Command) (arg : Byte) (m : StartMode) : CoreFrame s (s.takeStart c arg m) := by
  unfold State.takeStart
  dsimp only
  split
  · exact CoreFrame.of_lanes rfl rfl rfl rfl rfl rfl rfl
  · split
    · exact CoreFrame.of_lanes rfl rfl rfl rfl rfl rfl rfl
    · exact (CoreFrame.of_lane (LaneKeeps.startLane s _ m)).trans (CoreFrame.of_lanes rfl rfl rfl rfl rfl rfl rfl)

theorem State.takeStop_core (s : State) (arg : Byte) : CoreFrame s (s.takeStop arg) := by
  unfold State.takeStop
  dsimp only
  split
  · exact CoreFrame.of_lanes rfl rfl rfl rfl rfl rfl rfl
  · exact (CoreFrame.of_lane (LaneKeeps.enterStopped s _ true)).trans (CoreFrame.of_lanes rfl rfl rfl rfl rfl rfl rfl)
  · exact (CoreFrame.of_lane (LaneKeeps.setLane s _ _)).trans (CoreFrame.of_lanes rfl rfl rfl rfl rfl rfl rfl)
  · exact (CoreFrame.of_lane (LaneKeeps.setLane s _ _)).trans (CoreFrame.of_lanes rfl rfl rfl rfl rfl rfl rfl)
  · exact CoreFrame.of_lanes rfl rfl rfl rfl rfl rfl rfl

theorem State.takeAbort_core (s : State) (arg : Byte) : CoreFrame s (s.takeAbort arg) :=
  (CoreFrame.of_lane (LaneKeeps.cutLane s (laneOf arg) true)).trans (CoreFrame.of_lanes rfl rfl rfl rfl rfl rfl rfl)

theorem State.takeClear_core (s : State) (arg : Byte) : CoreFrame s (s.takeClear arg) := by
  unfold State.takeClear
  dsimp only
  split
  · exact (CoreFrame.of_lane ((LaneKeeps.setLane s _ _).trans (LaneKeeps.enterStopped _ _ false))).trans
      (CoreFrame.of_lanes rfl rfl rfl rfl rfl rfl rfl)
  · exact CoreFrame.of_lanes rfl rfl rfl rfl rfl rfl rfl

theorem State.takeMarkChanged_core (s : State) (arg : Byte) : CoreFrame s (s.takeMarkChanged arg) := by
  unfold State.takeMarkChanged
  dsimp only
  split <;> exact CoreFrame.of_lanes rfl rfl rfl rfl rfl rfl rfl

theorem State.takeFreezeFirst_core (s : State) : CoreFrame s s.takeFreezeFirst := by
  unfold State.takeFreezeFirst
  split <;> exact CoreFrame.of_lanes rfl rfl rfl rfl rfl rfl rfl

theorem State.takeFreezeSecond_core (s : State) : CoreFrame s s.takeFreezeSecond := by
  unfold State.takeFreezeSecond
  split <;> exact CoreFrame.of_lanes rfl rfl rfl rfl rfl rfl rfl

theorem CoreFrame.foldl_lanes (f : State → Fin 4 → State) (h : ∀ t n, CoreFrame t (f t n)) (ns : List (Fin 4)) (s : State) :
    CoreFrame s (ns.foldl f s) := by
  induction ns generalizing s with
  | nil => exact CoreFrame.refl s
  | cons n rest ih => exact (h s n).trans (ih (f s n))

/-- t has the window table, the locks, the straps and all settings of s, and no step count beyond the budget that s has not: what
the mode commands and the begin of a long command leave alone. -/
structure ModeFrame (s t : State) : Prop where
  table : t.table = s.table
  strap : t.strap = s.strap
  settings : t.settings = s.settings
  laneSettings : ∀ n, (t.lane n).settings = (s.lane n).settings
  stepCount : ∀ n, (s.lane n).stepCount ≤ 256 → (t.lane n).stepCount ≤ 256

theorem CoreFrame.modeFrame {s t : State} (h : CoreFrame s t) : ModeFrame s t :=
  ⟨h.table, h.strap, h.settings, h.laneSettings, h.stepCount⟩

theorem ModeFrame.trans {s t u : State} (h : ModeFrame s t) (k : ModeFrame t u) : ModeFrame s u :=
  ⟨k.table.trans h.table, k.strap.trans h.strap, k.settings.trans h.settings,
    fun n => (k.laneSettings n).trans (h.laneSettings n), fun n hn => k.stepCount n (h.stepCount n hn)⟩

theorem ModeFrame.of_lanes {s t : State} (h1 : t.table = s.table) (h2 : t.strap = s.strap) (h3 : t.settings = s.settings)
    (h4 : t.lanes = s.lanes) : ModeFrame s t :=
  ⟨h1, h2, h3, fun n => by simp only [State.lane, h4], fun n => by simp only [State.lane, h4]; exact id⟩

/-- GO QUIET: the mode is QUIET, and the engine stays IDLE or executes GO QUIET (R156). -/
theorem State.takeGoQuiet_frame (s : State) : ModeFrame s s.takeGoQuiet ∧ s.takeGoQuiet.mode = .quiet
    ∧ s.takeGoQuiet.locks = s.locks ∧ (s.takeGoQuiet.engine = s.engine ∨ s.takeGoQuiet.engine = .executing .goQuiet) := by
  unfold State.takeGoQuiet
  split
  case isTrue hm => exact ⟨ModeFrame.of_lanes rfl rfl rfl rfl, hm, rfl, Or.inl rfl⟩
  case isFalse =>
    have hlanes := CoreFrame.foldl_lanes State.quietLane (fun t n => CoreFrame.of_lane (LaneKeeps.quietLane t n)) laneList
      ({ s with mode := .quiet }.beginLong .goQuiet)
    have hbegin : ModeFrame s ({ s with mode := .quiet }.beginLong .goQuiet) := ModeFrame.of_lanes rfl rfl rfl rfl
    exact ⟨hbegin.trans hlanes.modeFrame, hlanes.mode, hlanes.locks, Or.inr hlanes.engine⟩

/-- GO ONLINE: the mode is ONLINE (R155). -/
theorem State.takeGoOnline_frame (s : State) : ModeFrame s s.takeGoOnline ∧ s.takeGoOnline.mode = .online
    ∧ s.takeGoOnline.locks = s.locks ∧ s.takeGoOnline.engine = s.engine := by
  unfold State.takeGoOnline
  dsimp only
  split <;> exact ⟨ModeFrame.of_lanes rfl rfl rfl rfl, rfl, rfl, rfl⟩

/-- GO OFFLINE: the mode is OFFLINE, no lock is left, and the engine executes GO OFFLINE (R157). -/
theorem State.takeGoOffline_frame (s : State) : ModeFrame s s.takeGoOffline ∧ s.takeGoOffline.mode = .offline
    ∧ s.takeGoOffline.locks = [] ∧ s.takeGoOffline.engine = .executing .goOffline := by
  unfold State.takeGoOffline
  dsimp only
  have hlanes := CoreFrame.foldl_lanes (fun t n => t.cutLane n false)
    (fun t n => CoreFrame.of_lane (LaneKeeps.cutLane t n false)) laneList ({ s with mode := .offline }.beginLong .goOffline)
  have hbegin : ModeFrame s ({ s with mode := .offline }.beginLong .goOffline) := ModeFrame.of_lanes rfl rfl rfl rfl
  have hend : ∀ t : State, ModeFrame t t.releaseAll.emptySets := fun t => ModeFrame.of_lanes rfl rfl rfl rfl
  exact ⟨(hbegin.trans hlanes.modeFrame).trans (hend _), hlanes.mode, rfl, hlanes.engine⟩

/-- LOAD SETTINGS and LOAD WINDOWS as they are taken: a refusal while a lane is active, else the read phase begins (R10, R160). -/
theorem State.takeLoad_cases (s : State) (long : LongCommand) :
    (∃ n, (s.lane n).active = true ∧ s.takeLoad long = s.setResult long.code .lanesActive (BitVec.ofNat 16 n.val))
    ∨ ((∀ n, (s.lane n).atRest = true) ∧ s.takeLoad long = s.beginLong long) := by
  unfold State.takeLoad
  split
  case h_1 n hn =>
    have hactive := List.find?_some (p := fun m => (s.lane m).active) hn
    exact Or.inl ⟨n, hactive, rfl⟩
  case h_2 hnone =>
    refine Or.inr ⟨fun n => ?_, rfl⟩
    have := List.find?_eq_none.1 hnone n (mem_laneList n)
    simpa [Lane.active] using this

end Sys2Proof.Machine
end

section
/-! PROOF. Predicates that are seen from the window table, the locks, the mode, the straps, the command engine and the settings:
the few changes of these that a step can make. -/

namespace Sys2Proof.Machine

/-- A change that keeps table, straps and settings; that keeps the locks in a mode that is not newly OFFLINE, or leaves none; and
that begins no release-and-drain phase of LOAD WINDOWS. -/
structure CoreChange (s t : State) : Prop where
  frame : ModeFrame s t
  locks : t.locks = [] ∨ (t.locks = s.locks ∧ (t.mode = s.mode ∨ t.mode ≠ .offline))
  engine : t.engine = s.engine ∨ ∀ table, t.engine ≠ .executing (.drainWindows table)

theorem CoreFrame.change {s t : State} (h : CoreFrame s t) : CoreChange s t :=
  ⟨h.modeFrame, Or.inr ⟨h.locks, Or.inl h.mode⟩, Or.inl h.engine⟩

/-- The finish of a long command, but for the installation of a table (R151). -/
theorem CoreChange.finishLong (s : State) (code : Byte) (o : CommandOutcome) (d : Word) :
    CoreChange s (s.finishLong code o d) :=
  ⟨ModeFrame.of_lanes rfl rfl rfl rfl, Or.inr ⟨rfl, Or.inl rfl⟩, Or.inr fun _ => nofun⟩

/-- The begin of a long command (R151). -/
theorem CoreChange.beginLong (s : State) (long : LongCommand) (h : ∀ table, long ≠ .drainWindows table) :
    CoreChange s (s.beginLong long) :=
  ⟨ModeFrame.of_lanes rfl rfl rfl rfl, Or.inr ⟨rfl, Or.inl rfl⟩, Or.inr fun table he => h table (Engine.executing.inj he)⟩

theorem CoreChange.tableReadGrant (s : State) : CoreChange s s.tableReadGrant := by
  unfold State.tableReadGrant
  dsimp only
  split
  · split
    · exact ⟨ModeFrame.of_lanes rfl rfl rfl rfl, Or.inr ⟨rfl, Or.inl rfl⟩, Or.inr fun _ => nofun⟩
    · exact ⟨ModeFrame.of_lanes rfl rfl rfl rfl, Or.inr ⟨rfl, Or.inl rfl⟩, Or.inr fun _ => nofun⟩
    · exact (CoreFrame.refl s).change
  · exact (CoreFrame.refl s).change

/-- The values of these blocks after a reset of any kind. -/
structure CoreReset (t : State) : Prop where
  table : t.table = Sixteen.replicate WindowEntry.unused
  laneSettings : ∀ n, (t.lane n).settings = LaneSettings.default
  stepCount : ∀ n, (t.lane n).stepCount = 0
  settings : t.settings = DeviceSettings.default
  locks : t.locks = []
  engine : ∀ table, t.engine ≠ .executing (.drainWindows table)

theorem CoreReset.blocksReset (s : State) (phase : Phase) (cause : ResetCause) : CoreReset (s.blocksReset phase cause) := by
  refine ⟨rfl, fun n => ?_, fun n => ?_, rfl, rfl, fun _ => nofun⟩ <;>
    simp [State.blocksReset, State.powerOn, State.lane, Lane.reset]

theorem CoreReset.takeSoftReset (s : State) : CoreReset s.takeSoftReset := by
  refine ⟨rfl, fun n => ?_, fun n => ?_, rfl, rfl, fun _ => nofun⟩ <;>
    simp [State.takeSoftReset, State.lane, State.beginLong, Lane.softReset, Lane.reset]

/-- What a predicate of these blocks has to survive so that every step keeps it. -/
structure CoreKept (P : State → Prop) : Prop where
  change : ∀ s t, CoreChange s t → P s → P t
  reset : ∀ t, CoreReset t → P t
  installTable : ∀ s table, s.engine = .executing (.drainWindows table) → P s → P ((s.installTable table).finishLong 0x05 .done 0)
  checkedTable : ∀ s image, s.tableFault [] image = none → s.tableActive = true → P s →
    P { s.releaseAll with engine := .executing (.drainWindows (tableOfImage image)) }
  installImage : ∀ s image, s.tableFault [] image = none → s.tableActive = false → P s →
    P ((s.installTable (tableOfImage image)).finishLong 0x05 .done 0)
  installSettings : ∀ s staging, settingsRangeFault staging = none → s.settingsOverlap staging = none → P s →
    s.engine = .executing (.loadSettings staging) → P ((s.installSettings staging).finishLong 0x04 .done 0)
  createLock : ∀ s w k, s.tableActive = true → (s.window w).locking = true → k < (s.window w).count → P s → P (s.createLock w k)
  releaseLock : ∀ s w k, P s → P (s.releaseLock w k)
  advance : ∀ s, P s → P s.advance

namespace CoreKept

variable {P : State → Prop}

theorem of_lanes (h : CoreKept P) {s t : State} (hs : P s) (h1 : t.table = s.table) (h2 : t.mode = s.mode)
    (h3 : t.strap = s.strap) (h4 : t.locks = s.locks) (h5 : t.engine = s.engine) (h6 : t.settings = s.settings)
    (h7 : t.lanes = s.lanes) : P t :=
  h.change s t (CoreFrame.of_lanes h1 h2 h3 h4 h5 h6 h7).change hs

theorem settle (h : CoreKept P) (s : State) (hs : P s) : P s.settle := by
  unfold State.settle
  split
  · split
    · exact h.change s _ (CoreChange.finishLong s _ _ _) hs
    · exact hs
  · split
    · exact h.change s _ (CoreChange.finishLong s _ _ _) hs
    · exact hs
  case h_3 table he =>
    split
    · exact h.installTable s table he hs
    · exact hs
  · split
    · exact h.change s _ (CoreChange.finishLong s _ _ _) hs
    · exact hs
  all_goals exact hs

theorem frame (h : CoreKept P) {s t : State} (hf : CoreFrame s t) (hs : P s) : P t := h.change s t hf.change hs

theorem takeLoad (h : CoreKept P) (s : State) (long : LongCommand) (hl : ∀ table, long ≠ .drainWindows table) (hs : P s) :
    P (s.takeLoad long) := by
  obtain ⟨n, _, heq⟩ | ⟨_, heq⟩ := s.takeLoad_cases long
  · rw [heq]; exact h.of_lanes hs rfl rfl rfl rfl rfl rfl rfl
  · rw [heq]; exact h.change s _ (CoreChange.beginLong s long hl) hs

theorem carryOut (h : CoreKept P) (s : State) (c : Command) (arg : Byte) (hm : c.available s.mode = true) (hs : P s) :
    P (s.carryOutCommand c arg) := by
  cases c with
  | goOffline =>
    show P s.takeGoOffline
    obtain ⟨hf, _, hl, he⟩ := s.takeGoOffline_frame
    exact h.change s _ ⟨hf, Or.inl hl, Or.inr fun table => by rw [he]; exact nofun⟩ hs
  | goQuiet =>
    show P s.takeGoQuiet
    obtain ⟨hf, hmode, hl, he⟩ := s.takeGoQuiet_frame
    refine h.change s _ ⟨hf, Or.inr ⟨hl, Or.inr (by rw [hmode]; exact nofun)⟩, ?_⟩ hs
    exact he.imp_right fun he table => by rw [he]; exact nofun
  | goOnline =>
    show P s.takeGoOnline
    obtain ⟨hf, hmode, hl, he⟩ := s.takeGoOnline_frame
    exact h.change s _ ⟨hf, Or.inr ⟨hl, Or.inr (by rw [hmode]; exact nofun)⟩, Or.inl he⟩ hs
  | loadSettings => exact h.takeLoad s _ (fun _ => nofun) hs
  | loadWindows => exact h.takeLoad s _ (fun _ => nofun) hs
  | startOnce => exact h.frame (s.takeStart_core _ arg _) hs
  | startContinuous => exact h.frame (s.takeStart_core _ arg _) hs
  | stop => exact h.frame (s.takeStop_core arg) hs
  | abort => exact h.frame (s.takeAbort_core arg) hs
  | clear => exact h.frame (s.takeClear_core arg) hs
  | markChanged => exact h.frame (s.takeMarkChanged_core arg) hs
  | releaseLocks => exact h.change s _ ⟨ModeFrame.of_lanes rfl rfl rfl rfl, Or.inl rfl, Or.inl rfl⟩ hs
  | freezeFirst => exact h.frame s.takeFreezeFirst_core hs
  | freezeSecond => exact h.frame s.takeFreezeSecond_core hs
  | softReset => exact h.reset _ (CoreReset.takeSoftReset s)

theorem accessKept (h : CoreKept P) : AccessKept P where
  passed s _ hs := h.of_lanes hs rfl rfl rfl rfl rfl rfl rfl
  memory s _ _ _ hs := h.of_lanes hs rfl rfl rfl rfl rfl rfl rfl
  answer s t ht hs := by
    unfold AnswerFrame at ht
    rw [ht]
    exact h.of_lanes hs rfl rfl rfl rfl rfl rfl rfl
  addChanged s a p _ hs := h.frame (CoreFrame.of_lane (LaneKeeps.addChanged 0 s _ _)) hs
  createLock s a p hp hl hs := by
    obtain ⟨hactive, _, hk⟩ := s.place_in_window a p hp
    exact h.createLock s _ _ hactive hl hk hs
  releaseLock := h.releaseLock
  carryOut s c arg _ hm _ hs := h.carryOut s c arg hm hs

theorem tableReadEnd (h : CoreKept P) (s : State) (hs : P s) : P s.tableReadEnd := by
  have hend : P s.endBurst := h.frame (CoreFrame.endBurst s) hs
  obtain ⟨heq, _⟩ | ⟨_, _, _, _, heq | ⟨staging, he, _, heq⟩ | ⟨image, _, _, heq⟩⟩ := s.tableReadEnd_cases
  · rw [heq]; exact hs
  · rw [heq]; exact hend
  · rw [heq]
    unfold State.checkSettings
    split
    · exact h.change _ _ (CoreChange.finishLong _ _ _ _) hend
    case h_2 hrange =>
      split
      · exact h.change _ _ (CoreChange.finishLong _ _ _ _) hend
      case h_2 hoverlap =>
        exact h.installSettings _ staging hrange hoverlap hend (by rw [State.endBurst_engine, he])
  · rw [heq]
    unfold State.checkWindows
    split
    · exact h.change _ _ (CoreChange.finishLong _ _ _ _) hend
    case h_2 hfault =>
      split
      case isTrue hactive => exact h.checkedTable _ image hfault hactive hend
      case isFalse hactive => exact h.installImage _ image hfault (by simpa using hactive) hend

/-- A predicate of these blocks that survives these changes survives every case of a step. -/
theorem kept (h : CoreKept P) : Kept P where
  queue s _ hs := h.of_lanes hs rfl rfl rfl rfl rfl rfl rfl
  wait s _ hs := h.of_lanes hs rfl rfl rfl rfl rfl rfl rfl
  atGrant s hs := h.frame (CoreFrame.atGrant s) hs
  settle := h.settle
  grantAccess s a hc hs := h.accessKept.grantAccess s a hc hs
  selfEnd s _ _ _ hs := h.frame (CoreFrame.endBurst s) hs
  captureBurstEnd s hs := h.frame (CoreFrame.captureBurstEnd s) hs
  commitBurstEnd s hs := h.frame (CoreFrame.commitBurstEnd s) hs
  drainBurstEnd s hs := h.frame (CoreFrame.drainBurstEnd s) hs
  tableReadEnd := h.tableReadEnd
  stepFetchGrant s hs := h.frame (CoreFrame.stepFetchGrant s) hs
  captureGrant s hs := h.frame (CoreFrame.captureGrant s) hs
  commitGrant s hs := h.frame (CoreFrame.commitGrant s) hs
  drainGrant s hs := h.frame (CoreFrame.drainGrant s) hs
  tableReadGrant s hs := h.change s _ (CoreChange.tableReadGrant s) hs
  statusWriteGrant s hs := h.frame (CoreFrame.statusWriteGrant s) hs
  laneRow _ s _ hrow hs := h.frame (CoreFrame.of_lane (LaneKeeps.laneRow hrow)) hs
  expireLock s w k hs := by
    unfold State.expireLock
    split
    · exact h.of_lanes (h.releaseLock s w k hs) rfl rfl rfl rfl rfl rfl rfl
    · exact hs
  hardResetAssert s late hs := by
    unfold State.hardResetAssert
    split
    · exact hs
    · have hreset := h.reset _ (CoreReset.blocksReset (s.cutBurst late) .hardReset .hard)
      unfold State.grantWaiting
      split
      case h_1 a _ => exact h.accessKept.grantAccess _ a (fun _ => Nat.zero_lt_succ 3) hreset
      case h_2 => exact hreset
  hardResetRelease s straps hs := by
    unfold State.hardResetRelease
    split
    · exact h.reset _ ⟨rfl, (CoreReset.blocksReset s .running .hard).laneSettings, (CoreReset.blocksReset s .running .hard).stepCount,
        rfl, rfl, fun _ => nofun⟩
    · exact hs
  powerOnReset s straps e hs := by
    cases e with
    | suppliesGood sram =>
      exact h.reset _ ⟨rfl, fun n => by simp [State.powerOnReset, State.suppliesGood, State.powerOn, State.lane, Lane.reset],
        fun n => by simp [State.powerOnReset, State.suppliesGood, State.powerOn, State.lane, Lane.reset], rfl, rfl, fun _ => nofun⟩
    | ends =>
      unfold State.powerOnReset State.powerOnEnds
      dsimp only
      split
      · exact h.reset _ ⟨rfl, (CoreReset.blocksReset s .running .powerOn).laneSettings,
          (CoreReset.blocksReset s .running .powerOn).stepCount, rfl, rfl, fun _ => nofun⟩
      · exact hs
  advance := h.advance

end CoreKept

/-! ### The lock table (R30) -/

/-- The laws of the lock table are seen from the locks, the windows and whether the table is active. -/
theorem LockLaws.change {s t : State} (h : LockLaws s) (hc : CoreChange s t) : LockLaws t := by
  obtain hnone | ⟨hl, hm⟩ := hc.locks
  · simp [LockLaws, hnone]
  · obtain ⟨hlen, hnodup, hall⟩ := h
    refine ⟨by rw [hl]; exact hlen, by rw [hl]; exact hnodup, fun l hmem => ?_⟩
    rw [hl] at hmem
    obtain ⟨hactive, hlock, hk⟩ := hall l hmem
    have hw : t.window l.window = s.window l.window := by simp only [State.window, hc.frame.table]
    refine ⟨?_, by rw [hw]; exact hlock, by rw [hw]; exact hk⟩
    unfold State.tableActive at hactive ⊢
    obtain hm | hm := hm
    · rw [hm]; exact hactive
    · simpa using hm

theorem LockLaws.of_no_locks {t : State} (h : t.locks = []) : LockLaws t := by
  simp [LockLaws, h]

/-- A release takes entries out of the lock table and changes nothing that its laws speak of otherwise (R33 to R35). -/
theorem LockLaws.releaseLock {s : State} (h : LockLaws s) (w : Fin 16) (k : Nat) : LockLaws (s.releaseLock w k) := by
  obtain ⟨hlen, hnodup, hall⟩ := h
  refine ⟨Nat.le_trans (List.length_filter_le _ _) hlen, ?_, fun l hmem => hall l (List.mem_of_mem_filter hmem)⟩
  exact (List.filter_sublist.map _).nodup hnodup

/-- No entry of the lock table names an unlocked record. -/
theorem State.not_mem_of_unlocked (s : State) (w : Fin 16) (k : Nat) (h : s.locked w k = false) :
    (w, k) ∉ s.locks.map fun l => (l.window, l.record) := by
  intro hmem
  obtain ⟨l, hl, heq⟩ := List.mem_map.1 hmem
  have := List.any_eq_false.1 h l hl
  simp only [Prod.mk.injEq] at heq
  simp [LockEntry.names, heq.1, heq.2] at this

/-- The lock table after an eviction: what was there, but for the oldest entry when the table was full (R33). -/
theorem State.evictIfFull_locks (s : State) :
    s.evictIfFull.locks.Sublist s.locks ∧ (s.locks.length ≤ 4 → s.evictIfFull.locks.length < 4) := by
  unfold State.evictIfFull
  cases h : s.locks with
  | nil => simp [h]
  | cons oldest rest =>
    dsimp only
    split
    case isTrue =>
      have hnames : oldest.names oldest.window oldest.record = true := by simp [LockEntry.names]
      have heq : ((s.releaseLock oldest.window oldest.record).raise .lockDrop).locks
          = rest.filter fun l => !l.names oldest.window oldest.record := by
        rw [State.raise_locks, State.releaseLock_locks, h, List.filter_cons_of_neg (by rw [hnames]; decide)]
      rw [heq]
      refine ⟨List.filter_sublist.trans (List.sublist_cons_self _ _), fun hlen => ?_⟩
      have := List.length_filter_le (fun l => !l.names oldest.window oldest.record) rest
      simp only [List.length_cons] at hlen
      omega
    case isFalse hfull =>
      simp only [Config.lockCapacity, List.length_cons] at hfull
      exact ⟨by rw [h], fun _ => by rw [h, List.length_cons]; omega⟩

theorem State.evictIfFull_frame (s : State) : s.evictIfFull.table = s.table ∧ s.evictIfFull.mode = s.mode
    ∧ s.evictIfFull.settings = s.settings := by
  unfold State.evictIfFull
  split
  · split <;> exact ⟨rfl, rfl, rfl⟩
  · exact ⟨rfl, rfl, rfl⟩

/-- A first-word read of a record with read locking keeps the laws: a new entry for an unlocked record, with the oldest evicted
from a full table (R32, R33). -/
theorem LockLaws.createLock {s : State} (h : LockLaws s) (w : Fin 16) (k : Nat) (hactive : s.tableActive = true)
    (hlocking : (s.window w).locking = true) (hk : k < (s.window w).count) : LockLaws (s.createLock w k) := by
  obtain ⟨hlen, hnodup, hall⟩ := h
  unfold State.createLock
  split
  case isTrue => exact ⟨hlen, hnodup, hall⟩
  case isFalse hfree =>
    obtain ⟨hsub, hroom⟩ := s.evictIfFull_locks
    obtain ⟨htable, hmode, _⟩ := s.evictIfFull_frame
    have hnew := s.not_mem_of_unlocked w k (by simpa using hfree)
    refine ⟨?_, ?_, fun l hmem => ?_⟩
    · have := hroom hlen
      simp only [List.length_append, List.length_cons, List.length_nil]
      omega
    · simp only [List.map_append, List.map_cons, List.map_nil]
      refine List.Nodup.append ((hsub.map _).nodup hnodup) (List.nodup_singleton _) ?_
      rw [List.disjoint_singleton]
      exact fun hmem => hnew ((hsub.map _).subset hmem)
    · have hgoal : ∀ v j, s.tableActive = true → (s.window v).locking = true → j < (s.window v).count →
          s.evictIfFull.tableActive = true ∧ (s.evictIfFull.window v).locking = true ∧ j < (s.evictIfFull.window v).count := by
        intro v j h1 h2 h3
        simp only [State.tableActive, State.window, hmode, htable] at *
        exact ⟨h1, h2, h3⟩
      obtain hold | hlast := List.mem_append.1 hmem
      · obtain ⟨h1, h2, h3⟩ := hall l (hsub.subset hold)
        exact hgoal _ _ h1 h2 h3
      · rw [List.mem_singleton] at hlast
        subst hlast
        exact hgoal w k hactive hlocking hk

/-- An installation leaves no lock: with the table active every lock is released, and while it is inactive there is none (R13). -/
theorem LockLaws.installTable {s : State} (h : LockLaws s) (table : Sixteen WindowEntry) : (s.installTable table).locks = [] := by
  unfold State.installTable
  split
  · rfl
  case isFalse hm => exact List.eq_nil_iff_forall_not_mem.2 fun l hl => hm (h.2.2 l hl).1

theorem lockLaws_coreKept : CoreKept LockLaws where
  change _ _ hc hs := hs.change hc
  reset t ht := LockLaws.of_no_locks ht.locks
  installTable s table _ hs := LockLaws.of_no_locks (t := (s.installTable table).finishLong 0x05 .done 0) (hs.installTable table)
  checkedTable s image _ _ _ := LockLaws.of_no_locks rfl
  installImage s image _ _ hs :=
    LockLaws.of_no_locks (t := (s.installTable (tableOfImage image)).finishLong 0x05 .done 0) (hs.installTable (tableOfImage image))
  installSettings s staging _ _ hs _ := hs
  createLock s w k h1 h2 h3 hs := hs.createLock w k h1 h2 h3
  releaseLock s w k hs := hs.releaseLock w k
  advance s hs := by
    obtain ⟨hlen, hnodup, hall⟩ := hs
    have hmap : s.advance.locks = s.locks.map fun l => { l with remaining := l.remaining - 1 } := rfl
    refine ⟨by rw [hmap, List.length_map]; exact hlen, by rw [hmap, List.map_map]; exact hnodup, fun l hmem => ?_⟩
    rw [hmap] at hmem
    obtain ⟨l', hl', rfl⟩ := List.mem_map.1 hmem
    exact hall l' hl'

/-- Settles O56: every case of a step keeps the laws of the lock table. -/
theorem stepKeepsLockLaws : Obligations.StepKeepsLockLaws :=
  fun s t hs ht => lockLaws_coreKept.kept.step s t hs ht

end Sys2Proof.Machine
end

section
/-! PROOF. The images of LOAD WINDOWS and LOAD SETTINGS: what their checks find (R11, R161), in the words of the statements. -/

namespace Sys2Proof.Machine

/-! ### Entries of a window table image (section 10.1.6) -/

theorem windowOfQuad_unused (q : Quad) (h : q.w3 = 0) : windowOfQuad q = WindowEntry.unused := by
  unfold windowOfQuad
  rw [if_pos h]

/-- The fields of a used entry. -/
theorem windowOfQuad_fields (q : Quad) (h : q.w3 ≠ 0) :
    (windowOfQuad q).base.toNat = imageBase q ∧ (windowOfQuad q).size = q.w2.toNat ∧ (windowOfQuad q).count = q.w3.toNat
    ∧ (windowOfQuad q).length = imageLength q ∧ ((windowOfQuad q).kind = .feed ↔ q.w1.getLsbD 8 = true)
    ∧ (windowOfQuad q).option = q.w1.getLsbD 9 ∧ (windowOfQuad q).lane.val = q.w1.toNat / 16 % 4 := by
  have hbase : (q.w1.extractLsb' 0 4 ++ q.w0 : BitVec 20).toNat = imageBase q := by
    rw [BitVec.toNat_append, ← Nat.shiftLeft_add_eq_or_of_lt q.w0.isLt, Nat.shiftLeft_eq, BitVec.extractLsb'_toNat]
    rfl
  have hlane : (q.w1.extractLsb' 4 2).toNat = q.w1.toNat / 16 % 4 := by
    rw [BitVec.extractLsb'_toNat, Nat.shiftRight_eq_div_pow]
  unfold windowOfQuad
  rw [if_neg h]
  refine ⟨hbase, rfl, rfl, rfl, ?_, rfl, hlane⟩
  dsimp only
  cases q.w1.getLsbD 8 <;> simp

theorem windowOfQuad_used (q : Quad) : (windowOfQuad q).used = true ↔ q.w3 ≠ 0 := by
  by_cases h : q.w3 = 0
  · rw [windowOfQuad_unused q h]
    simp [h, WindowEntry.used, WindowEntry.unused]
  · have hne : q.w3.toNat ≠ 0 := fun e => h (BitVec.eq_of_toNat_eq e)
    obtain ⟨_, _, hcount, _⟩ := windowOfQuad_fields q h
    simp only [WindowEntry.used, hcount, bne_iff_ne]
    exact ⟨fun _ => h, fun _ => hne⟩

/-- The least size of an entry by its kind (R1). -/
theorem windowOfQuad_leastSize (q : Quad) (h : q.w3 ≠ 0) :
    (if (windowOfQuad q).kind = .mirror then 1 else 2) = if q.w1.getLsbD 8 = true then 2 else 1 := by
  obtain ⟨_, _, _, _, hkind, _, _⟩ := windowOfQuad_fields q h
  cases hk : (windowOfQuad q).kind with
  | mirror => rw [if_pos rfl, if_neg fun hb => nomatch hk.symm.trans (hkind.2 hb)]
  | feed => rw [if_neg nofun, if_pos (hkind.1 hk)]

/-- The first of R11's checks that an entry of an image fails (the ranges). -/
theorem State.windowFault_range (s : State) (earlier : List WindowEntry) (q : Quad) (h : ImageOutOfRange q) :
    s.windowFault earlier q = some .range := by
  obtain ⟨hused, hbad⟩ := h
  obtain ⟨hbase, hsize, hcount, hlen, _, _, _⟩ := windowOfQuad_fields q hused
  unfold State.windowFault
  rw [if_neg hused]
  dsimp only
  rw [windowOfQuad_leastSize q hused, hcount, hsize, hbase, hlen]
  by_cases h1 : 256 < q.w3.toNat
  · rw [if_pos h1]
  by_cases h2 : windowZeroBitsOk q = true
  case neg => rw [if_neg h1, if_pos (by simp [h2])]
  rw [if_neg h1, if_neg (by simp [h2])]
  simp only [windowZeroBitsOk, Bool.and_eq_true, beq_iff_eq] at h2
  by_cases h3 : q.w2.toNat < (if q.w1.getLsbD 8 then 2 else 1) ∨ 16 < q.w2.toNat
  · rw [if_pos (by simpa [or_comm] using h3)]
  by_cases h4 : 0xFFFFF < imageBase q + imageLength q - 1
  · rw [if_neg (by simpa [or_comm] using h3), if_pos h4]
  · exfalso
    obtain hb | hb | hb | hb | hb | hb := hbad
    · exact h1 hb
    · exact hb h2.1
    · exact hb h2.2
    · exact h3 (Or.inl hb)
    · exact h3 (Or.inr hb)
    · exact h4 hb

/-- An entry that meets the control block, a loaded program area or an entry before it, as R11's last check puts it. -/
def State.entryMeets (s : State) (earlier : List WindowEntry) (e : WindowEntry) : Prop :=
  runsOverlap e.base.toNat e.length s.base.toNat 256 = true
  ∨ (∃ n : Fin 4, ∃ p ∈ (s.lane n).settings.page, runsOverlap e.base.toNat e.length (pageBase p) 256 = true)
  ∨ ∃ f ∈ earlier, f.used = true ∧ runsOverlap e.base.toNat e.length f.base.toNat f.length = true

/-- The program area of a loaded lane shares a word with an entry's extent (R11). -/
def Lane.areaMeets (l : Lane) (e : WindowEntry) : Bool :=
  match l.settings.page with
  | some p => runsOverlap e.base.toNat e.length (pageBase p) 256
  | none => false

theorem Lane.areaMeets_iff (l : Lane) (e : WindowEntry) :
    l.areaMeets e = true ↔ ∃ p ∈ l.settings.page, runsOverlap e.base.toNat e.length (pageBase p) 256 = true := by
  unfold Lane.areaMeets
  constructor
  · intro h
    split at h
    case h_1 p hp => exact ⟨p, hp, h⟩
    case h_2 => cases h
  · rintro ⟨p, hp, h⟩
    rw [Option.mem_def.1 hp]
    exact h

/-- The checks of R11 on an entry whose ranges are good. -/
theorem State.windowFault_eq (s : State) (earlier : List WindowEntry) (q : Quad) (hused : q.w3 ≠ 0) (hr : ¬ ImageOutOfRange q) :
    s.windowFault earlier q =
      if runsOverlap (windowOfQuad q).base.toNat (windowOfQuad q).length s.base.toNat 256 then some .overlap
      else if laneList.any fun n => (s.lane n).areaMeets (windowOfQuad q) then some .overlap
      else if earlier.any fun f => f.used && runsOverlap (windowOfQuad q).base.toNat (windowOfQuad q).length f.base.toNat f.length
        then some .overlap
      else none := by
  obtain ⟨hbase, hsize, hcount, hlen, _, _, _⟩ := windowOfQuad_fields q hused
  have hnot : ¬ (256 < q.w3.toNat ∨ q.w1.extractLsb' 6 2 ≠ 0 ∨ q.w1.extractLsb' 10 6 ≠ 0
    ∨ q.w2.toNat < (if q.w1.getLsbD 8 then 2 else 1) ∨ 16 < q.w2.toNat ∨ 0xFFFFF < imageBase q + imageLength q - 1) :=
    fun hbad => hr ⟨hused, hbad⟩
  simp only [not_or, not_not] at hnot
  obtain ⟨h1, h2, h3, h4, h5, h6⟩ := hnot
  unfold State.windowFault
  rw [if_neg hused]
  dsimp only
  rw [if_neg (by rw [hcount]; exact h1), if_neg (by simp [windowZeroBitsOk, h2, h3]),
    if_neg (by rw [windowOfQuad_leastSize q hused, hsize]; simp only [Bool.or_eq_true, decide_eq_true_eq, not_or]; exact ⟨h5, h4⟩),
    if_neg (by rw [hbase, hlen]; exact h6)]
  rfl

/-- An entry in range is refused for an overlap or passes (R11). -/
theorem State.windowFault_in_range (s : State) (earlier : List WindowEntry) (q : Quad) (hused : q.w3 ≠ 0)
    (hr : ¬ ImageOutOfRange q) :
    (s.entryMeets earlier (windowOfQuad q) → s.windowFault earlier q = some .overlap)
    ∧ (¬ s.entryMeets earlier (windowOfQuad q) → s.windowFault earlier q = none) := by
  have hlanes : (laneList.any fun n => (s.lane n).areaMeets (windowOfQuad q)) = true
      ↔ ∃ n : Fin 4, ∃ p ∈ (s.lane n).settings.page, runsOverlap (windowOfQuad q).base.toNat (windowOfQuad q).length (pageBase p) 256 = true := by
    simp only [List.any_eq_true, mem_laneList, true_and, Lane.areaMeets_iff]
  have hearlier : (earlier.any fun f => f.used && runsOverlap (windowOfQuad q).base.toNat (windowOfQuad q).length f.base.toNat f.length) = true
      ↔ ∃ f ∈ earlier, f.used = true ∧ runsOverlap (windowOfQuad q).base.toNat (windowOfQuad q).length f.base.toNat f.length = true := by
    simp only [List.any_eq_true, Bool.and_eq_true]
  rw [s.windowFault_eq earlier q hused hr]
  unfold State.entryMeets
  rw [← hlanes, ← hearlier]
  refine ⟨fun hmeets => ?_, fun hmeets => ?_⟩
  · split
    · rfl
    split
    · rfl
    split
    · rfl
    · rename_i h1 h2 h3
      exact absurd hmeets (by simp only [not_or]; exact ⟨h1, h2, h3⟩)
  · simp only [not_or] at hmeets
    rw [if_neg hmeets.1, if_neg hmeets.2.1, if_neg hmeets.2.2]

theorem State.windowFault_unused (s : State) (earlier : List WindowEntry) (q : Quad) (h : q.w3 = 0) :
    s.windowFault earlier q = none := by
  unfold State.windowFault
  rw [if_pos h]

/-! ### The whole image -/

/-- The entries of an image before the i-th. -/
def entriesBefore (image : List Quad) (i : Nat) : List WindowEntry := (image.take i).map windowOfQuad

theorem mem_entriesBefore (image : List Quad) (i : Nat) (hi : i ≤ image.length) (f : WindowEntry) :
    f ∈ entriesBefore image i ↔ ∃ j, j < i ∧ f = windowOfQuad (burstAt image j) := by
  simp only [entriesBefore, List.mem_map, List.mem_take_iff_getElem, burstAt]
  constructor
  · rintro ⟨q, ⟨j, hj, rfl⟩, rfl⟩
    exact ⟨j, by omega, by rw [List.getD_eq_getElem _ _ (by omega)]⟩
  · rintro ⟨j, hj, rfl⟩
    exact ⟨_, ⟨j, by omega, rfl⟩, by rw [List.getD_eq_getElem _ _ (by omega)]⟩

/-- The overlap check of an image entry, in the words of the statements. -/
theorem State.entryMeets_iff (s : State) (image : List Quad) (i : Nat) (hi : i ≤ image.length) (hused : (burstAt image i).w3 ≠ 0) :
    s.entryMeets (entriesBefore image i) (windowOfQuad (burstAt image i)) ↔ ImageOverlaps s image i := by
  obtain ⟨hbase, _, _, hlen, _, _, _⟩ := windowOfQuad_fields (burstAt image i) hused
  have hruns : ∀ b lb, runsOverlap (windowOfQuad (burstAt image i)).base.toNat (windowOfQuad (burstAt image i)).length b lb = true
      ↔ imageBase (burstAt image i) < b + lb ∧ b < imageBase (burstAt image i) + imageLength (burstAt image i) := by
    intro b lb
    rw [hbase, hlen]
    simp only [runsOverlap, Bool.and_eq_true, decide_eq_true_eq]
  have hothers : (∃ f ∈ entriesBefore image i, f.used = true
        ∧ runsOverlap (windowOfQuad (burstAt image i)).base.toNat (windowOfQuad (burstAt image i)).length f.base.toNat f.length = true)
      ↔ ∃ j, j < i ∧ (burstAt image j).w3 ≠ 0
          ∧ imageBase (burstAt image i) < imageBase (burstAt image j) + imageLength (burstAt image j)
          ∧ imageBase (burstAt image j) < imageBase (burstAt image i) + imageLength (burstAt image i) := by
    constructor
    · rintro ⟨f, hf, hfused, hmeet⟩
      obtain ⟨j, hj, rfl⟩ := (mem_entriesBefore image i hi f).1 hf
      rw [windowOfQuad_used] at hfused
      obtain ⟨hb, _, _, hl, _, _, _⟩ := windowOfQuad_fields _ hfused
      rw [hruns, hb, hl] at hmeet
      exact ⟨j, hj, hfused, hmeet⟩
    · rintro ⟨j, hj, hjused, hmeet⟩
      obtain ⟨hb, _, _, hl, _, _, _⟩ := windowOfQuad_fields _ hjused
      exact ⟨_, (mem_entriesBefore image i hi _).2 ⟨j, hj, rfl⟩, (windowOfQuad_used _).2 hjused, by rw [hruns, hb, hl]; exact hmeet⟩
  unfold State.entryMeets ImageOverlaps
  rw [hothers, hruns]
  simp only [hruns, pageBase]
  exact ⟨fun h => ⟨hused, h⟩, fun h => h.2⟩

/-- What the checks of R11 find in entry i of an image, with the entries before it. -/
theorem State.windowFault_image (s : State) (image : List Quad) (i : Nat) (hi : i ≤ image.length) :
    (ImageOutOfRange (burstAt image i) → s.windowFault (entriesBefore image i) (burstAt image i) = some .range)
    ∧ (¬ ImageOutOfRange (burstAt image i) → ImageOverlaps s image i →
        s.windowFault (entriesBefore image i) (burstAt image i) = some .overlap)
    ∧ (ImagePasses s image i → s.windowFault (entriesBefore image i) (burstAt image i) = none) := by
  refine ⟨s.windowFault_range _ _, fun hr ho => ?_, fun hp => ?_⟩
  · exact (s.windowFault_in_range _ _ ho.1 hr).1 ((s.entryMeets_iff image i hi ho.1).2 ho)
  · by_cases hused : (burstAt image i).w3 = 0
    · exact s.windowFault_unused _ _ hused
    · exact (s.windowFault_in_range _ _ hused hp.1).2 fun hm => hp.2 ((s.entryMeets_iff image i hi hused).1 hm)

theorem State.passes_of_windowFault (s : State) (image : List Quad) (i : Nat) (hi : i ≤ image.length)
    (h : s.windowFault (entriesBefore image i) (burstAt image i) = none) : ImagePasses s image i := by
  obtain ⟨hrange, hoverlap, _⟩ := s.windowFault_image image i hi
  refine ⟨fun hr => ?_, fun ho => ?_⟩
  · rw [hrange hr] at h; cases h
  · by_cases hr : ImageOutOfRange (burstAt image i)
    · rw [hrange hr] at h; cases h
    · rw [hoverlap hr ho] at h; cases h

/-- The check of the rest of an image from entry i on: it ends with the entry's fault, or goes on with the next entry. -/
theorem State.tableFault_from (s : State) (image : List Quad) (i : Nat) (hi : i < image.length) :
    (∀ o, s.windowFault (entriesBefore image i) (burstAt image i) = some o →
      s.tableFault (entriesBefore image i) (image.drop i) = some (o, i))
    ∧ (s.windowFault (entriesBefore image i) (burstAt image i) = none →
      s.tableFault (entriesBefore image i) (image.drop i) = s.tableFault (entriesBefore image (i + 1)) (image.drop (i + 1))) := by
  have hburst : burstAt image i = image[i] := List.getD_eq_getElem _ _ hi
  have hlen : (entriesBefore image i).length = i := by simp [entriesBefore]; omega
  have hnext : entriesBefore image (i + 1) = entriesBefore image i ++ [windowOfQuad image[i]] := by
    rw [entriesBefore, entriesBefore, List.take_succ_eq_append_getElem hi, List.map_append, List.map_singleton]
  rw [List.drop_eq_getElem_cons hi, hburst, hnext]
  refine ⟨fun o ho => ?_, fun ho => ?_⟩
  · simp only [State.tableFault, ho, hlen]
  · rw [State.tableFault, ho]

/-- The entries before i pass: what the check finds is found from entry i on. -/
theorem State.tableFault_skip (s : State) (image : List Quad) (i : Nat) (hi : i ≤ image.length)
    (hpass : ∀ j, j < i → s.windowFault (entriesBefore image j) (burstAt image j) = none) :
    s.tableFault [] image = s.tableFault (entriesBefore image i) (image.drop i) := by
  induction i with
  | zero => simp [entriesBefore]
  | succ i ih =>
    rw [ih (by omega) fun j hj => hpass j (by omega), (s.tableFault_from image i (by omega)).2 (hpass i (by omega))]

/-- The first entry that fails ends the check with its outcome and index (R11). -/
theorem State.tableFault_at (s : State) (image : List Quad) (i : Nat) (hi : i < image.length) (o : CommandOutcome)
    (hpass : ∀ j, j < i → ImagePasses s image j) (hfail : s.windowFault (entriesBefore image i) (burstAt image i) = some o) :
    s.tableFault [] image = some (o, i) := by
  rw [s.tableFault_skip image i (by omega) fun j hj => (s.windowFault_image image j (by omega)).2.2 (hpass j hj),
    (s.tableFault_from image i hi).1 o hfail]

/-- An image all of whose entries pass has no fault (R11). -/
theorem State.tableFault_of_passes (s : State) (image : List Quad) (h : ∀ i, i < image.length → ImagePasses s image i) :
    s.tableFault [] image = none := by
  rw [s.tableFault_skip image image.length le_rfl fun j hj => (s.windowFault_image image j (by omega)).2.2 (h j hj),
    List.drop_length]
  rfl

/-- An image without a fault has only entries that pass, and none beyond its end. -/
theorem State.passes_of_tableFault (s : State) (image : List Quad) (h : s.tableFault [] image = none) (i : Nat) :
    ImagePasses s image i := by
  have hall : ∀ k, k ≤ image.length → ∀ j, j < k → s.windowFault (entriesBefore image j) (burstAt image j) = none := by
    intro k
    induction k with
    | zero => exact fun _ j hj => absurd hj (Nat.not_lt_zero j)
    | succ k ih =>
      intro hk j hj
      obtain hlt | rfl := Nat.lt_succ_iff_lt_or_eq.1 hj
      · exact ih (by omega) j hlt
      · cases hf : s.windowFault (entriesBefore image j) (burstAt image j) with
        | none => rfl
        | some o =>
          rw [s.tableFault_skip image j (by omega) (ih (by omega)), (s.tableFault_from image j (by omega)).1 o hf] at h
          cases h
  by_cases hi : i < image.length
  · exact s.passes_of_windowFault image i (by omega) (hall image.length le_rfl i hi)
  · have hnone : (burstAt image i).w3 = 0 := by rw [burstAt, List.getD_eq_default _ _ (Nat.le_of_not_lt hi)]
    exact ⟨fun hr => hr.1 hnone, fun ho => ho.1 hnone⟩

theorem tableOfImage_get (image : List Quad) (w : Fin 16) :
    Sixteen.get (tableOfImage image) w = windowOfQuad (burstAt image w.val) := by
  have hdefault : windowOfQuad { w0 := 0, w1 := 0, w2 := 0, w3 := 0 } = WindowEntry.unused := rfl
  rw [tableOfImage, Sixteen.get_ofFn, burstAt, ← hdefault]
  simp only [List.getD_eq_getElem?_getD, List.getElem?_map]
  cases image[w.val]? <;> rfl

/-- The table of an image whose entries all pass keeps R4. -/
theorem tableApart_of_passes (s : State) (image : List Quad) (h : ∀ i, ImagePasses s image i) :
    TableApart s (tableOfImage image) := by
  have hpair : ∀ i j, j < i → (burstAt image i).w3 ≠ 0 → (burstAt image j).w3 ≠ 0 →
      runsOverlap (imageBase (burstAt image i)) (imageLength (burstAt image i)) (imageBase (burstAt image j))
        (imageLength (burstAt image j)) = false := by
    intro i j hj hi' hj'
    rw [runsOverlap_false]
    by_contra hmeet
    exact (h i).2 ⟨hi', Or.inr (Or.inr ⟨j, hj, hj', by omega, by omega⟩)⟩
  intro w hw
  rw [tableOfImage_get, windowOfQuad_used] at hw
  rw [tableOfImage_get]
  obtain ⟨hbase, hsize, hcount, hlen, hkind, _, _⟩ := windowOfQuad_fields _ hw
  obtain ⟨hrange, hoverlap⟩ := h w.val
  have hok : ¬ (256 < (burstAt image w.val).w3.toNat ∨ (burstAt image w.val).w1.extractLsb' 6 2 ≠ 0
      ∨ (burstAt image w.val).w1.extractLsb' 10 6 ≠ 0
      ∨ (burstAt image w.val).w2.toNat < (if (burstAt image w.val).w1.getLsbD 8 then 2 else 1)
      ∨ 16 < (burstAt image w.val).w2.toNat
      ∨ 0xFFFFF < imageBase (burstAt image w.val) + imageLength (burstAt image w.val) - 1) := fun hbad => hrange ⟨hw, hbad⟩
  simp only [not_or, not_lt] at hok
  obtain ⟨h1, _, _, h4, h5, h6⟩ := hok
  refine ⟨⟨?_, ?_, ?_, ?_, ?_⟩, ?_, ?_, ?_⟩
  · rw [hcount]; exact h1
  · rw [hsize]; split at h4 <;> omega
  · rw [hsize]; exact h5
  · intro hf
    rw [hsize]
    rw [if_pos (hkind.1 hf)] at h4
    exact h4
  · rw [hbase, hlen]; omega
  · rw [hbase, hlen, runsOverlap_false]
    by_contra hmeet
    exact hoverlap ⟨hw, Or.inl ⟨by omega, by omega⟩⟩
  · intro n p hp
    rw [hbase, hlen, runsOverlap_false]
    by_contra hmeet
    refine hoverlap ⟨hw, Or.inr (Or.inl ⟨n, p, hp, ?_, ?_⟩)⟩ <;>
      (simp only [pageBase] at hmeet; omega)
  · intro v hne hv
    rw [tableOfImage_get, windowOfQuad_used] at hv
    rw [tableOfImage_get]
    obtain ⟨hbase', _, _, hlen', _, _, _⟩ := windowOfQuad_fields _ hv
    rw [hbase, hlen, hbase', hlen']
    have hval : v.val ≠ w.val := fun e => hne (Fin.ext e)
    obtain hlt | hgt := Nat.lt_or_gt_of_ne hval
    · exact hpair _ _ hlt hw hv
    · have := hpair _ _ hgt hv hw
      rw [runsOverlap_false] at this ⊢
      omega

end Sys2Proof.Machine
end

section
/-! PROOF. The checks of LOAD SETTINGS (R161) in the words of the statements: the words of the settings images, their ranges, and the
overlaps of the new program areas. -/

namespace Sys2Proof.Machine

/-! ### The words of the images (R160) -/

/-- The words of lane n's image, by the two bursts that hold it. -/
theorem settingWord_lane (staging : List Quad) (n : Fin 4) :
    settingWord staging (0x10 + 8 * n.val) = (laneBursts staging n).1.w0
    ∧ settingWord staging (0x11 + 8 * n.val) = (laneBursts staging n).1.w1
    ∧ settingWord staging (0x12 + 8 * n.val) = (laneBursts staging n).1.w2
    ∧ settingWord staging (0x13 + 8 * n.val) = (laneBursts staging n).1.w3
    ∧ settingWord staging (0x14 + 8 * n.val) = (laneBursts staging n).2.w0
    ∧ settingWord staging (0x15 + 8 * n.val) = (laneBursts staging n).2.w1 := by
  match n with
  | 0 => exact ⟨rfl, rfl, rfl, rfl, rfl, rfl⟩
  | 1 => exact ⟨rfl, rfl, rfl, rfl, rfl, rfl⟩
  | 2 => exact ⟨rfl, rfl, rfl, rfl, rfl, rfl⟩
  | 3 => exact ⟨rfl, rfl, rfl, rfl, rfl, rfl⟩

/-- The words of the device settings image. -/
theorem settingWord_device (staging : List Quad) :
    settingWord staging 0x03 = (burstAt staging 0).w0 ∧ settingWord staging 0x04 = (burstAt staging 0).w1
    ∧ settingWord staging 0x05 = (burstAt staging 0).w2 ∧ settingWord staging 0x06 = (burstAt staging 0).w3 :=
  ⟨rfl, rfl, rfl, rfl⟩

/-! ### Ranges -/

/-- The valid values of the six words of lane n's image. -/
theorem valueValid_lane (n : Fin 4) (v : Nat) :
    (ValueValid (0x10 + 8 * n.val) v ↔ 2 ≤ v ∧ v ≤ 255) ∧ (ValueValid (0x11 + 8 * n.val) v ↔ 16 ≤ v ∧ v ≤ 1023)
    ∧ (ValueValid (0x12 + 8 * n.val) v ↔ v ≤ 4095 ∨ v = 0xFFFF) ∧ (ValueValid (0x13 + 8 * n.val) v ↔ v ≤ 7)
    ∧ (ValueValid (0x14 + 8 * n.val) v ↔ 1 ≤ v) ∧ (ValueValid (0x15 + 8 * n.val) v ↔ 1 ≤ v ∧ v ≤ 128) := by
  have := n.isLt
  unfold ValueValid
  refine ⟨?_, ?_, ?_, ?_, ?_, ?_⟩ <;> omega

/-- The valid values of the three device settings words that have a range. -/
theorem valueValid_device (v : Nat) :
    (ValueValid 0x04 v ↔ v ≤ 7) ∧ (ValueValid 0x05 v ↔ 1 ≤ v ∧ v ≤ 255) ∧ (ValueValid 0x06 v ↔ v ≤ 1) := by
  unfold ValueValid
  refine ⟨?_, ?_, ?_⟩ <;> omega

/-- A word at any other offset has no range. -/
theorem valueValid_other (off v : Nat) (hdevice : ¬ (0x04 ≤ off ∧ off ≤ 0x06))
    (hlane : ∀ n : Fin 4, ¬ (0x10 + 8 * n.val ≤ off ∧ off ≤ 0x15 + 8 * n.val)) : ValueValid off v := by
  have h0 := hlane 0
  have h1 := hlane 1
  have h2 := hlane 2
  have h3 := hlane 3
  simp only [Fin.val_zero, Fin.val_one, Fin.val_two, show (3 : Fin 4).val = 3 from rfl] at h0 h1 h2 h3
  unfold ValueValid
  omega

/-- The bursts of the settings images are checked as the table of R161 says. -/
theorem mem_settingsRangeChecks (staging : List Quad) (off : Nat) (ok : Bool) (h : (off, ok) ∈ settingsRangeChecks staging) :
    ok = true ↔ SettingValid staging off := by
  simp only [settingsRangeChecks, List.mem_append, List.mem_cons, List.not_mem_nil, or_false, List.mem_flatMap, Prod.mk.injEq] at h
  obtain (⟨rfl, rfl⟩ | ⟨rfl, rfl⟩ | ⟨rfl, rfl⟩) | ⟨n, -, hn⟩ := h
  case inl.inl =>
    rw [SettingValid, (valueValid_device _).1, decide_eq_true_eq]
    exact Nat.lt_succ_iff
  case inl.inr.inl => rw [SettingValid, (valueValid_device _).2.1, Bool.and_eq_true, decide_eq_true_eq, decide_eq_true_eq]; rfl
  case inl.inr.inr => rw [SettingValid, (valueValid_device _).2.2, decide_eq_true_eq]; rfl
  case inr =>
    obtain ⟨hw0, hw1, hw2, hw3, hw4, hw5⟩ := settingWord_lane staging n
    obtain ⟨hv0, hv1, hv2, hv3, hv4, hv5⟩ := valueValid_lane n (settingWord staging off).toNat
    simp only [laneRangeChecks, List.mem_cons, List.not_mem_nil, or_false, Prod.mk.injEq] at hn
    obtain ⟨rfl, rfl⟩ | ⟨rfl, rfl⟩ | ⟨rfl, rfl⟩ | ⟨rfl, rfl⟩ | ⟨rfl, rfl⟩ | ⟨rfl, rfl⟩ := hn
    case inl => rw [SettingValid, hv0, hw0, Bool.and_eq_true, decide_eq_true_eq, decide_eq_true_eq]
    case inr.inl =>
      rw [show 0x10 + 8 * n.val + 1 = 0x11 + 8 * n.val from by omega] at *
      rw [SettingValid, hv1, hw1, Bool.and_eq_true, decide_eq_true_eq, decide_eq_true_eq]
    case inr.inr.inl =>
      rw [show 0x10 + 8 * n.val + 2 = 0x12 + 8 * n.val from by omega] at *
      rw [SettingValid, hv2, hw2, Bool.or_eq_true, decide_eq_true_eq, beq_iff_eq, ← BitVec.toNat_inj]
      rfl
    case inr.inr.inr.inl =>
      rw [show 0x10 + 8 * n.val + 3 = 0x13 + 8 * n.val from by omega] at *
      rw [SettingValid, hv3, hw3, decide_eq_true_eq]
      exact Nat.lt_succ_iff
    case inr.inr.inr.inr.inl =>
      rw [show 0x10 + 8 * n.val + 4 = 0x14 + 8 * n.val from by omega] at *
      rw [SettingValid, hv4, hw4, decide_eq_true_eq]
    case inr.inr.inr.inr.inr =>
      rw [show 0x10 + 8 * n.val + 5 = 0x15 + 8 * n.val from by omega] at *
      rw [SettingValid, hv5, hw5, Bool.and_eq_true, decide_eq_true_eq, decide_eq_true_eq]

/-- A word that is out of range is among the words that are checked. -/
theorem checked_of_invalid (staging : List Quad) (off : Nat) (h : ¬ SettingValid staging off) :
    ∃ ok, (off, ok) ∈ settingsRangeChecks staging := by
  by_contra hno
  simp only [settingsRangeChecks, List.mem_append, List.mem_cons, List.not_mem_nil, or_false, List.mem_flatMap, Prod.mk.injEq,
    laneRangeChecks] at hno
  refine h (valueValid_other off _ (fun hd => hno ?_) fun n hl => hno ?_)
  · obtain rfl | rfl | rfl : off = 0x04 ∨ off = 0x05 ∨ off = 0x06 := by omega
    · exact ⟨_, Or.inl (Or.inl ⟨rfl, rfl⟩)⟩
    · exact ⟨_, Or.inl (Or.inr (Or.inl ⟨rfl, rfl⟩))⟩
    · exact ⟨_, Or.inl (Or.inr (Or.inr ⟨rfl, rfl⟩))⟩
  · have hcases : off = 0x10 + 8 * n.val ∨ off = 0x10 + 8 * n.val + 1 ∨ off = 0x10 + 8 * n.val + 2 ∨ off = 0x10 + 8 * n.val + 3
        ∨ off = 0x10 + 8 * n.val + 4 ∨ off = 0x10 + 8 * n.val + 5 := by omega
    obtain ho | ho | ho | ho | ho | ho := hcases
    · exact ⟨_, Or.inr ⟨n, mem_laneList n, Or.inl ⟨ho, rfl⟩⟩⟩
    · exact ⟨_, Or.inr ⟨n, mem_laneList n, Or.inr (Or.inl ⟨ho, rfl⟩)⟩⟩
    · exact ⟨_, Or.inr ⟨n, mem_laneList n, Or.inr (Or.inr (Or.inl ⟨ho, rfl⟩))⟩⟩
    · exact ⟨_, Or.inr ⟨n, mem_laneList n, Or.inr (Or.inr (Or.inr (Or.inl ⟨ho, rfl⟩)))⟩⟩
    · exact ⟨_, Or.inr ⟨n, mem_laneList n, Or.inr (Or.inr (Or.inr (Or.inr (Or.inl ⟨ho, rfl⟩))))⟩⟩
    · exact ⟨_, Or.inr ⟨n, mem_laneList n, Or.inr (Or.inr (Or.inr (Or.inr (Or.inr ⟨ho, rfl⟩))))⟩⟩

/-- The words are checked in ascending order of offset. -/
theorem settingsRangeChecks_ascending (staging : List Quad) :
    ((settingsRangeChecks staging).map Prod.fst).Pairwise (· < ·) := by
  have hoffsets : (settingsRangeChecks staging).map Prod.fst = [0x04, 0x05, 0x06, 0x10, 0x11, 0x12, 0x13, 0x14, 0x15, 0x18, 0x19, 0x1A,
      0x1B, 0x1C, 0x1D, 0x20, 0x21, 0x22, 0x23, 0x24, 0x25, 0x28, 0x29, 0x2A, 0x2B, 0x2C, 0x2D] := rfl
  rw [hoffsets]
  decide

/-- The first word out of range is the one the check finds (R161). -/
theorem settingsRangeFault_first (staging : List Quad) (off : Nat) (hbad : ¬ SettingValid staging off)
    (hbefore : ∀ o, o < off → SettingValid staging o) : settingsRangeFault staging = some off := by
  obtain ⟨ok, hmem⟩ := checked_of_invalid staging off hbad
  have hok : ok = false := Bool.eq_false_iff.2 fun h => hbad ((mem_settingsRangeChecks staging off ok hmem).1 h)
  subst hok
  obtain ⟨front, back, hsplit⟩ := List.append_of_mem hmem
  have hsorted := settingsRangeChecks_ascending staging
  have hfind : (settingsRangeChecks staging).find? (fun c => !c.2) = some (off, false) := by
    rw [List.find?_eq_some_iff_append]
    refine ⟨rfl, front, back, hsplit, fun c hc => ?_⟩
    rw [hsplit, List.map_append, List.pairwise_append] at hsorted
    have hlt : c.1 < off := hsorted.2.2 _ (List.mem_map_of_mem hc) off (by simp)
    have hvalid := (mem_settingsRangeChecks staging c.1 c.2 (by rw [hsplit]; exact List.mem_append_left _ hc)).2 (hbefore _ hlt)
    simp [hvalid]
  rw [settingsRangeFault, hfind]
  rfl

/-- The check finds nothing exactly when every word is in range (R161). -/
theorem settingsRangeFault_none_iff (staging : List Quad) :
    settingsRangeFault staging = none ↔ ∀ off, SettingValid staging off := by
  rw [settingsRangeFault, Option.map_eq_none_iff, List.find?_eq_none]
  constructor
  · intro h off
    by_contra hbad
    obtain ⟨ok, hmem⟩ := checked_of_invalid staging off hbad
    have := h _ hmem
    exact hbad ((mem_settingsRangeChecks staging off ok hmem).1 (by simpa using this))
  · rintro h ⟨off, ok⟩ hmem
    simp [(mem_settingsRangeChecks staging off ok hmem).2 (h off)]

/-! ### Overlaps -/

/-- Each of the four bases is the first word of a page. -/
theorem State.base_toNat_cases (s : State) :
    s.base.toNat = 0 ∨ s.base.toNat = 0x3FF * 256 ∨ s.base.toNat = 0x7FF * 256 ∨ s.base.toNat = 0xFFF * 256 := by
  obtain h | h | h | h := s.base_cases <;> rw [h] <;> decide

/-- The page that lane n's new settings name: none for FFFFh. -/
theorem newSettings_page (staging : List Quad) (n : Fin 4) :
    (newSettings staging n).page = if settingWord staging (0x12 + 8 * n.val) = 0xFFFF then none
      else some ((settingWord staging (0x12 + 8 * n.val)).extractLsb' 0 12) := by
  rw [(settingWord_lane staging n).2.2.1]
  rfl

/-- A page in range is its word's value. -/
theorem page_toNat (w : Word) (h : w.toNat ≤ 4095 ∨ w.toNat = 0xFFFF) (hne : w ≠ 0xFFFF) : (w.extractLsb' 0 12).toNat = w.toNat := by
  have hle : w.toNat ≤ 4095 := h.resolve_right fun e => hne (BitVec.eq_of_toNat_eq e)
  rw [BitVec.extractLsb'_toNat, Nat.shiftRight_zero]
  omega

/-- The overlap check of lane n's new program area, in the words of the statements. -/
theorem State.areaOverlaps_iff (s : State) (staging : List Quad) (hvalid : ∀ off, SettingValid staging off) (n : Fin 4) :
    s.areaOverlaps staging n = true ↔ NewAreaMeets s staging n := by
  have hrange : ∀ m : Fin 4, (settingWord staging (0x12 + 8 * m.val)).toNat ≤ 4095 ∨ (settingWord staging (0x12 + 8 * m.val)).toNat = 0xFFFF :=
    fun m => (valueValid_lane m _).2.2.1.1 (hvalid _)
  unfold State.areaOverlaps NewAreaMeets
  dsimp only
  rw [newSettings_page]
  by_cases hpage : settingWord staging (0x12 + 8 * n.val) = 0xFFFF
  · simp [hpage]
  · rw [if_neg hpage]
    have hp := page_toNat _ (hrange n) hpage
    simp only [Bool.or_eq_true, List.any_eq_true, Bool.and_eq_true, decide_eq_true_eq, beq_iff_eq, runsOverlap, pageBase, hp,
      or_assoc]
    refine ⟨fun h => ⟨hpage, ?_⟩, fun h => ?_⟩
    · obtain h | ⟨m, -, hm, hsame⟩ | ⟨w, -, hused, hmeet⟩ := h
      · left
        have h4095 : (settingWord staging (0x12 + 8 * n.val)).toNat ≤ 4095 :=
          (hrange n).resolve_right fun e => hpage (BitVec.eq_of_toNat_eq e)
        have := s.base_toNat_cases
        omega
      · refine Or.inr (Or.inl ⟨m, hm, ?_⟩)
        rw [newSettings_page] at hsame
        split at hsame
        · cases hsame
        · rename_i hm'
          refine BitVec.eq_of_toNat_eq ?_
          rw [← page_toNat _ (hrange m) hm', ← hp, Option.some.inj hsame]
      · exact Or.inr (Or.inr ⟨w, hused, hmeet⟩)
    · obtain ⟨-, h | ⟨m, hm, hsame⟩ | ⟨w, hused, hmeet⟩⟩ := h
      · left
        omega
      · refine Or.inr (Or.inl ⟨m, mem_laneList m, hm, ?_⟩)
        rw [newSettings_page, hsame, if_neg hpage]
      · exact Or.inr (Or.inr ⟨w, mem_windowList w, hused, hmeet⟩)

/-- The first lane whose new area overlaps is the one the check finds (R161). -/
theorem State.settingsOverlap_first (s : State) (staging : List Quad) (hvalid : ∀ off, SettingValid staging off) (n : Fin 4)
    (hmeets : NewAreaMeets s staging n) (hbefore : ∀ m : Fin 4, m < n → ¬ NewAreaMeets s staging m) :
    s.settingsOverlap staging = some n := by
  have hiff := s.areaOverlaps_iff staging hvalid
  have hn := (hiff n).2 hmeets
  have hlow : ∀ m : Fin 4, m < n → s.areaOverlaps staging m = false := fun m hm =>
    Bool.eq_false_iff.2 fun h => hbefore m hm ((hiff m).1 h)
  unfold State.settingsOverlap laneList
  match n with
  | 0 => simp [List.find?, hn]
  | 1 => simp [List.find?, hn, hlow 0 (by decide)]
  | 2 => simp [List.find?, hn, hlow 0 (by decide), hlow 1 (by decide)]
  | 3 => simp [List.find?, hn, hlow 0 (by decide), hlow 1 (by decide), hlow 2 (by decide)]

theorem State.settingsOverlap_none_iff (s : State) (staging : List Quad) (hvalid : ∀ off, SettingValid staging off) :
    s.settingsOverlap staging = none ↔ ∀ n, ¬ NewAreaMeets s staging n := by
  rw [State.settingsOverlap, List.find?_eq_none]
  exact ⟨fun h n hm => h n (mem_laneList n) ((s.areaOverlaps_iff staging hvalid n).2 hm),
    fun h n _ hm => h n ((s.areaOverlaps_iff staging hvalid n).1 hm)⟩

/-! ### What an accepted image installs -/

@[simp] theorem State.installSettings_lane (s : State) (staging : List Quad) (n : Fin 4) :
    (s.installSettings staging).lane n = { s.lane n with settings := newSettings staging n } := by
  simp [State.installSettings, State.lane]

/-- The settings of an accepted image are in range. -/
theorem settingsLaws_install (s : State) (staging : List Quad) (hvalid : ∀ off, SettingValid staging off) :
    SettingsLaws (s.installSettings staging) := by
  obtain ⟨-, hlock, -⟩ := valueValid_device (settingWord staging 0x05).toNat
  refine ⟨(hlock.1 (hvalid _)).1, (hlock.1 (hvalid _)).2, fun n => ?_⟩
  rw [State.installSettings_lane]
  obtain ⟨hw0, hw1, _, _, hw4, hw5⟩ := settingWord_lane staging n
  have h0 := (valueValid_lane n _).1.1 (hvalid _)
  have h1 := (valueValid_lane n _).2.1.1 (hvalid _)
  have h4 := (valueValid_lane n _).2.2.2.2.1.1 (hvalid _)
  have h5 := (valueValid_lane n _).2.2.2.2.2.1 (hvalid _)
  rw [hw0] at h0; rw [hw1] at h1; rw [hw4] at h4; rw [hw5] at h5
  exact ⟨h0.1, h0.2, h1.1, h1.2, h4, Nat.lt_succ_iff.1 (laneBursts staging n).2.w0.isLt, h5.1, h5.2⟩

end Sys2Proof.Machine
end

section
/-! PROOF. The windows and program areas stay apart (R4, R161); memory keeps its form and the counts and settings their ranges. -/

namespace Sys2Proof.Machine

/-! ### Areas (R4, R161) -/

/-- Whether a table keeps R4 is seen from the base and the program pages. -/
theorem TableApart.of_same {s t : State} {table : Sixteen WindowEntry} (h : TableApart s table) (hb : t.strap = s.strap)
    (hp : ∀ n, (t.lane n).settings.page = (s.lane n).settings.page) : TableApart t table := by
  intro w hw
  obtain ⟨h1, h2, h3, h4⟩ := h w hw
  refine ⟨h1, by simpa [State.base, hb] using h2, fun n p hpage => h3 n p (by rw [← hp n]; exact hpage), h4⟩

theorem AreasApart.of_same {s t : State} (h : AreasApart s) (hb : t.strap = s.strap)
    (hp : ∀ n, (t.lane n).settings.page = (s.lane n).settings.page) : AreasApart t := by
  obtain ⟨h1, h2⟩ := h
  refine ⟨fun n p hpage => ?_, fun m n hne hm => ?_⟩
  · have := h1 n p (by rw [← hp n]; exact hpage)
    simpa [State.base, hb] using this
  · rw [hp m, hp n]
    exact h2 m n hne (by rw [← hp m]; exact hm)

theorem AreaLaws.change {s t : State} (h : AreaLaws s) (hc : CoreChange s t) : AreaLaws t := by
  obtain ⟨hapart, hareas, hdrain⟩ := h
  have hpage : ∀ n, (t.lane n).settings.page = (s.lane n).settings.page := fun n => by rw [hc.frame.laneSettings n]
  refine ⟨?_, hareas.of_same hc.frame.strap hpage, fun table he => ?_⟩
  · rw [hc.frame.table]
    exact TableApart.of_same hapart hc.frame.strap hpage
  · obtain hsame | hnone := hc.engine
    · exact TableApart.of_same (hdrain table (by rw [← hsame]; exact he)) hc.frame.strap hpage
    · exact absurd he (hnone table)

/-- Updates of other blocks leave the laws of the areas as they are. -/
theorem AreaLaws.of_same {s t : State} (h : AreaLaws s) (h1 : t.table = s.table) (h2 : t.strap = s.strap)
    (h3 : ∀ n, (t.lane n).settings = (s.lane n).settings) (h4 : t.engine = s.engine) : AreaLaws t := by
  obtain ⟨hapart, hareas, hdrain⟩ := h
  have hpage : ∀ n, (t.lane n).settings.page = (s.lane n).settings.page := fun n => by rw [h3 n]
  refine ⟨?_, hareas.of_same h2 hpage, fun table he => TableApart.of_same (hdrain table (by rw [← h4]; exact he)) h2 hpage⟩
  rw [h1]
  exact TableApart.of_same hapart h2 hpage

/-- No used window and no loaded lane: nothing can meet. -/
theorem AreaLaws.of_reset {t : State} (h : CoreReset t) : AreaLaws t := by
  have hpage : ∀ n, (t.lane n).settings.page = none := fun n => by rw [h.laneSettings n]; rfl
  refine ⟨fun w hw => ?_, ⟨fun n p hp => ?_, fun m n _ hm => absurd (hpage m) hm⟩, fun table he => absurd he (h.engine table)⟩
  · rw [h.table, Sixteen.get_replicate] at hw
    cases hw
  · rw [hpage n] at hp
    cases hp

/-- A table that keeps R4 is installed. -/
theorem AreaLaws.install {s : State} (h : AreaLaws s) (table : Sixteen WindowEntry) (ht : TableApart s table) (code : Byte)
    (o : CommandOutcome) (d : Word) : AreaLaws ((s.installTable table).finishLong code o d) := by
  have hframe := (EngineFrame.installTable s table).trans (EngineFrame.finishLong _ code o d)
  have htable : ((s.installTable table).finishLong code o d).table = table := by
    unfold State.installTable
    split <;> rfl
  have hstrap : ((s.installTable table).finishLong code o d).strap = s.strap := by
    unfold EngineFrame at hframe
    rw [hframe]
  have hpage : ∀ n, (((s.installTable table).finishLong code o d).lane n).settings.page = (s.lane n).settings.page :=
    fun n => by rw [hframe.lane n]
  refine ⟨?_, h.2.1.of_same hstrap hpage, fun table' he => nomatch he⟩
  rw [htable]
  exact ht.of_same hstrap hpage

/-- Accepted settings keep the areas apart (R161). -/
theorem AreaLaws.installSettings {s : State} (h : AreaLaws s) (staging : List Quad) (hvalid : ∀ off, SettingValid staging off)
    (hfree : ∀ n, ¬ NewAreaMeets s staging n) (code : Byte) (o : CommandOutcome) (d : Word) :
    AreaLaws ((s.installSettings staging).finishLong code o d) := by
  have hlane : ∀ n, (((s.installSettings staging).finishLong code o d).lane n).settings = newSettings staging n := fun n => by
    show ((s.installSettings staging).lane n).settings = _
    rw [State.installSettings_lane]
  have hpage : ∀ n, ∀ p ∈ (newSettings staging n).page, p.toNat = (settingWord staging (0x12 + 8 * n.val)).toNat
      ∧ settingWord staging (0x12 + 8 * n.val) ≠ 0xFFFF := by
    intro n p hp
    rw [newSettings_page] at hp
    split at hp
    · cases hp
    case isFalse hne =>
      refine ⟨?_, hne⟩
      rw [← Option.some.inj hp, page_toNat _ ((valueValid_lane n _).2.2.1.1 (hvalid _)) hne]
  have hpair : ∀ m n : Fin 4, m < n → (newSettings staging m).page ≠ none →
      (newSettings staging m).page ≠ (newSettings staging n).page := by
    intro m n hlt hm hsame
    obtain ⟨p, hp⟩ := Option.ne_none_iff_exists'.1 hm
    obtain ⟨hpm, hnem⟩ := hpage m p hp
    obtain ⟨hpn, hnen⟩ := hpage n p (by rw [← hsame]; exact hp)
    exact hfree n ⟨hnen, Or.inr (Or.inl ⟨m, hlt, BitVec.eq_of_toNat_eq (by rw [← hpm, hpn])⟩)⟩
  refine ⟨fun w hw => ?_, ⟨fun n p hp => ?_, fun m n hne hm => ?_⟩, fun table he => nomatch he⟩
  · obtain ⟨h1, h2, _, h4⟩ := h.1 w hw
    refine ⟨h1, h2, fun n p hp => ?_, h4⟩
    rw [hlane n] at hp
    obtain ⟨hpn, hne⟩ := hpage n p hp
    rw [runsOverlap_false]
    by_contra hmeet
    refine hfree n ⟨hne, Or.inr (Or.inr ⟨w, hw, ?_⟩)⟩
    rw [← hpn]
    simp only [pageBase, WindowEntry.length, not_or, not_le] at hmeet
    exact ⟨hmeet.2, hmeet.1⟩
  · rw [hlane n] at hp
    obtain ⟨hpn, hne⟩ := hpage n p hp
    have hbase : p.toNat * 256 ≠ s.base.toNat := fun e => hfree n ⟨hne, Or.inl (by rw [← hpn]; exact e)⟩
    have hcases := s.base_toNat_cases
    show runsOverlap (pageBase p) 256 s.base.toNat 256 = false
    rw [runsOverlap_false]
    unfold pageBase
    omega
  · rw [hlane m] at hm ⊢
    rw [hlane n]
    obtain hlt | hgt := Nat.lt_or_gt_of_ne fun e => hne (Fin.ext e)
    · exact hpair m n hlt hm
    · intro hsame
      exact hpair n m hgt (by rw [← hsame]; exact hm) hsame.symm

/-- The locks are no matter of the areas. -/
theorem State.createLock_frame (s : State) (w : Fin 16) (k : Nat) :
    (s.createLock w k).table = s.table ∧ (s.createLock w k).strap = s.strap ∧ (s.createLock w k).lanes = s.lanes
    ∧ (s.createLock w k).engine = s.engine ∧ (s.createLock w k).settings = s.settings := by
  have hevict : s.evictIfFull.table = s.table ∧ s.evictIfFull.strap = s.strap ∧ s.evictIfFull.lanes = s.lanes
      ∧ s.evictIfFull.engine = s.engine ∧ s.evictIfFull.settings = s.settings := by
    unfold State.evictIfFull
    split
    · split <;> exact ⟨rfl, rfl, rfl, rfl, rfl⟩
    · exact ⟨rfl, rfl, rfl, rfl, rfl⟩
  unfold State.createLock
  split
  · exact ⟨rfl, rfl, rfl, rfl, rfl⟩
  · exact hevict

theorem State.advance_laneSettings (s : State) (n : Fin 4) : (s.advance.lane n).settings = (s.lane n).settings := by
  simp [State.advance, State.lane, Lane.advance]

theorem State.advance_stepCount (s : State) (n : Fin 4) : (s.advance.lane n).stepCount = (s.lane n).stepCount := by
  simp [State.advance, State.lane, Lane.advance]

theorem areaLaws_coreKept : CoreKept AreaLaws where
  change _ _ hc hs := hs.change hc
  reset _ ht := AreaLaws.of_reset ht
  installTable s table he hs := hs.install table (hs.2.2 table he) _ _ _
  checkedTable s image hf _ hs := by
    obtain ⟨hapart, hareas, _⟩ := hs
    refine ⟨hapart, hareas, fun table he => ?_⟩
    obtain rfl : tableOfImage image = table := LongCommand.drainWindows.inj (Engine.executing.inj he)
    exact tableApart_of_passes s image (s.passes_of_tableFault image hf)
  installImage s image hf _ hs := hs.install _ (tableApart_of_passes s image (s.passes_of_tableFault image hf)) _ _ _
  installSettings s staging hr ho hs _ := by
    have hvalid := (settingsRangeFault_none_iff staging).1 hr
    exact hs.installSettings staging hvalid ((s.settingsOverlap_none_iff staging hvalid).1 ho) _ _ _
  createLock s w k _ _ _ hs := by
    obtain ⟨h1, h2, h3, h4, _⟩ := s.createLock_frame w k
    exact hs.of_same h1 h2 (fun n => by simp only [State.lane, h3]) h4
  releaseLock s w k hs := hs.of_same rfl rfl (fun _ => rfl) rfl
  advance s hs := hs.of_same rfl rfl s.advance_laneSettings rfl

/-- Settles O58: every case of a step keeps the windows and program areas apart. -/
theorem stepKeepsAreaLaws : Obligations.StepKeepsAreaLaws :=
  fun s t hs ht => areaLaws_coreKept.kept.step s t hs ht

/-! ### Settings (R161) -/

/-- The laws of the settings are seen from the settings alone. -/
theorem SettingsLaws.of_same {s t : State} (h : SettingsLaws s) (h1 : t.settings = s.settings)
    (h2 : ∀ n, (t.lane n).settings = (s.lane n).settings) : SettingsLaws t := by
  obtain ⟨hlo, hhi, hlanes⟩ := h
  refine ⟨by rw [h1]; exact hlo, by rw [h1]; exact hhi, fun n => ?_⟩
  rw [h2 n]
  exact hlanes n

/-- The defaults are in range (R129, R159). -/
theorem SettingsLaws.of_reset {t : State} (h : CoreReset t) : SettingsLaws t := by
  refine ⟨by rw [h.settings]; decide, by rw [h.settings]; decide, fun n => ?_⟩
  rw [h.laneSettings n]
  decide

theorem settingsLaws_coreKept : CoreKept SettingsLaws where
  change _ _ hc hs := hs.of_same hc.frame.settings hc.frame.laneSettings
  reset _ ht := SettingsLaws.of_reset ht
  installTable s table _ hs := by
    have hframe := EngineFrame.installTable s table
    refine SettingsLaws.of_same hs ?_ fun n => ?_
    · exact (congrArg State.settings hframe : _)
    · show ((s.installTable table).lane n).settings = _
      rw [hframe.lane n]
  checkedTable s image _ _ hs := hs.of_same rfl fun _ => rfl
  installImage s image _ _ hs := by
    have hframe := EngineFrame.installTable s (tableOfImage image)
    refine SettingsLaws.of_same hs ?_ fun n => ?_
    · exact (congrArg State.settings hframe : _)
    · show ((s.installTable (tableOfImage image)).lane n).settings = _
      rw [hframe.lane n]
  installSettings s staging hr _ _ _ :=
    (settingsLaws_install s staging ((settingsRangeFault_none_iff staging).1 hr)).of_same rfl fun _ => rfl
  createLock s w k _ _ _ hs := by
    obtain ⟨_, _, h3, _, h5⟩ := s.createLock_frame w k
    exact hs.of_same h5 fun n => by simp only [State.lane, h3]
  releaseLock s w k hs := hs.of_same rfl fun _ => rfl
  advance s hs := hs.of_same rfl s.advance_laneSettings

end Sys2Proof.Machine
end

section
/-! PROOF. Memory keeps its canonical form, and the counts keep their ranges. -/

namespace Sys2Proof.Machine

/-- A change that keeps the form of memory and the ranges of the counts. -/
structure FormFrame (s t : State) : Prop where
  memory : MemoryLaw s → MemoryLaw t
  fairness : s.arbiter.fairness ≤ 4 → t.arbiter.fairness ≤ 4
  stepCount : ∀ n, (s.lane n).stepCount ≤ 256 → (t.lane n).stepCount ≤ 256
  status : t.status.length = s.status.length
  sweep : s.sweep < 41 → t.sweep < 41

namespace FormFrame

theorem refl (s : State) : FormFrame s s := ⟨id, id, fun _ => id, rfl, id⟩

theorem trans {s t u : State} (h : FormFrame s t) (k : FormFrame t u) : FormFrame s u :=
  ⟨fun hs => k.memory (h.memory hs), fun hs => k.fairness (h.fairness hs), fun n hs => k.stepCount n (h.stepCount n hs),
    k.status.trans h.status, fun hs => k.sweep (h.sweep hs)⟩

/-- A change of other blocks alone. -/
theorem of_same {s t : State} (h1 : t.mem = s.mem) (h2 : t.arbiter = s.arbiter) (h3 : t.lanes = s.lanes)
    (h4 : t.status = s.status) (h5 : t.sweep = s.sweep) : FormFrame s t :=
  ⟨fun hs => by rw [MemoryLaw, h1]; exact hs, fun hs => by rw [h2]; exact hs,
    fun n hs => by simpa only [State.lane, h3] using hs, by rw [h4], fun hs => by rw [h5]; exact hs⟩

theorem of_lane {n : Fin 4} {s t : State} (h : LaneKeeps n s t) : FormFrame s t := by
  obtain ⟨hmem, _, _, _, _, _, _, harb, hstatus, hsweep, _⟩ := h.1.fields
  exact ⟨fun hs => by rw [MemoryLaw, hmem]; exact hs, fun hs => by rw [harb]; exact hs, (CoreFrame.of_lane h).stepCount,
    by rw [hstatus], fun hs => by rw [hsweep]; exact hs⟩

theorem of_engine {s t : State} (h : EngineFrame s t) : FormFrame s t := by
  unfold EngineFrame at h
  rw [h]
  exact of_same rfl rfl rfl rfl rfl

theorem endBurst (s : State) : FormFrame s s.endBurst := by
  refine ⟨fun hs => ?_, fun hs => by rw [State.endBurst_arbiter]; exact hs, fun n hs => by simpa only [State.lane, State.endBurst_lanes] using hs,
    by rw [State.endBurst_status], fun hs => by rw [State.endBurst_sweep]; exact hs⟩
  unfold State.endBurst
  split
  · exact Memory.wf_writeAll _ _ hs
  · exact hs

/-- A bridge grant clears the fairness count (R140). -/
theorem countGrant (s : State) (src : Source) : FormFrame s (s.countGrant src) :=
  ⟨id, fun _ => by rw [State.countGrant_arbiter, Arbiter.served_fairness]; exact Nat.zero_le 4, fun _ => id, rfl, id⟩

theorem holdPort (s : State) (u : BurstUser) (k : Nat) (ws : List (Addr × Word)) : FormFrame s (s.holdPort u k ws) :=
  of_same rfl rfl rfl rfl rfl

/-- The fairness count moves up only from below 4 (R140). -/
theorem passed (s : State) (h : s.canCount) : FormFrame s s.passed := by
  refine ⟨id, fun _ => ?_, fun _ => id, rfl, id⟩
  show (if s.claimWaiting then s.arbiter.fairness + 1 else 0) ≤ 4
  split
  case isTrue hc => exact h hc
  case isFalse => exact Nat.zero_le 4

theorem writeStatus (s : State) (i : Nat) : FormFrame s (s.writeStatus i) := by
  refine ⟨fun hs => Memory.wf_writeWord _ _ _ hs, id, fun _ => id, List.length_set .., fun hs => ?_⟩
  show (if i = causeIndex then s.sweep else (i + 1) % statusWords) < 41
  split
  · exact hs
  · exact Nat.mod_lt _ (Nat.zero_lt_succ _)

theorem captureBurstEnd (s : State) : FormFrame s s.captureBurstEnd := by
  obtain ⟨heq, _⟩ | ⟨n, _, _, _, _, heq | ⟨sel, _, _, heq⟩⟩ := s.captureBurstEnd_cases
  · rw [heq]; exact refl s
  · rw [heq]; exact endBurst s
  · rw [heq]; exact (endBurst s).trans (of_lane (LaneKeeps.requestCall _ n _))

theorem commitBurstEnd (s : State) : FormFrame s s.commitBurstEnd := by
  obtain ⟨heq, _⟩ | ⟨n, _, _, _, _, heq | ⟨e, _, heq⟩⟩ := s.commitBurstEnd_cases
  · rw [heq]; exact refl s
  · rw [heq]; exact endBurst s
  · rw [heq]; exact (endBurst s).trans (of_lane (LaneKeeps.commitResolved _ n e))

theorem drainBurstEnd (s : State) : FormFrame s s.drainBurstEnd := by
  obtain ⟨heq, _⟩ | ⟨n, _, _, _, _, heq⟩ := s.drainBurstEnd_cases
  · rw [heq]; exact refl s
  · rw [heq]
    have hdrop : FormFrame s.endBurst (s.endBurst.dropSlot n) := of_same rfl rfl rfl rfl rfl
    exact ((endBurst s).trans hdrop).trans (of_lane (LaneKeeps.retryHeld _ n))

/-- New settings leave the step counts as they are (R162). -/
theorem installSettings (s : State) (staging : List Quad) : FormFrame s (s.installSettings staging) :=
  ⟨id, id, fun n hs => by rw [State.installSettings_lane]; exact hs, rfl, id⟩

theorem checkSettings (s : State) (staging : List Quad) : FormFrame s (s.checkSettings staging) := by
  unfold State.checkSettings
  split
  · exact of_engine (EngineFrame.finishLong s _ _ _)
  · split
    · exact of_engine (EngineFrame.finishLong s _ _ _)
    · exact (installSettings s staging).trans (of_engine (EngineFrame.finishLong _ _ _ _))

theorem checkWindows (s : State) (image : List Quad) : FormFrame s (s.checkWindows image) := by
  unfold State.checkWindows
  split
  · exact of_engine (EngineFrame.finishLong s _ _ _)
  · split
    · exact of_same rfl rfl rfl rfl rfl
    · exact of_engine ((EngineFrame.installTable s _).trans (EngineFrame.finishLong _ _ _ _))

theorem tableReadEnd (s : State) : FormFrame s s.tableReadEnd := by
  obtain ⟨heq, _⟩ | ⟨_, _, _, _, heq | ⟨staging, _, _, heq⟩ | ⟨image, _, _, heq⟩⟩ := s.tableReadEnd_cases
  · rw [heq]; exact refl s
  · rw [heq]; exact endBurst s
  · rw [heq]; exact (endBurst s).trans (checkSettings _ staging)
  · rw [heq]; exact (endBurst s).trans (checkWindows _ image)

theorem stepFetchGrant (s : State) : FormFrame s s.stepFetchGrant := by
  unfold State.stepFetchGrant
  split
  · exact ((countGrant s _).trans (of_lane (LaneKeeps.fetchStep _ _))).trans (holdPort _ _ _ _)
  · exact refl s

theorem removeChanged (s : State) (w : Fin 16) (k : Nat) : FormFrame s (s.removeChanged w k) := by
  unfold State.removeChanged
  split <;> exact of_same rfl rfl rfl rfl rfl

theorem captureGrant (s : State) : FormFrame s s.captureGrant := by
  unfold State.captureGrant
  dsimp only
  split
  case h_2 => exact refl s
  case h_1 n _ =>
    split
    case h_2 => exact countGrant s _
    case h_1 sel _ =>
      exact (((countGrant s (.capture n)).trans (removeChanged _ _ _)).trans
        (of_lane (LaneKeeps.setLane _ n _ (by simp [State.lane]) (by simp [State.lane])))).trans (holdPort _ _ _ _)

theorem decideCommit (s : State) (n : Fin 4) (e : HoldEntry) : FormFrame s (s.decideCommit n e) := by
  have hfill : ∀ f, FormFrame s (s.fillSlot n f) := fun f => of_same rfl rfl rfl rfl rfl
  unfold State.decideCommit
  dsimp only
  split
  · split
    · exact (hfill _).trans (of_lane (LaneKeeps.commitResolved _ n e))
    · split
      · exact (hfill _).trans (of_lane (LaneKeeps.commitResolved _ n e))
      · exact of_lane (LaneKeeps.setLane s n _)
  · split
    · have hdrop : FormFrame s (s.dropSlot n) := of_same rfl rfl rfl rfl rfl
      exact (hdrop.trans (of_lane (LaneKeeps.setLane _ n _))).trans (holdPort _ _ _ _)
    · exact (of_lane (LaneKeeps.setLane s n _)).trans (holdPort _ _ _ _)

theorem commitGrant (s : State) : FormFrame s s.commitGrant := by
  unfold State.commitGrant
  split
  · split
    · exact (countGrant s _).trans (decideCommit _ _ _)
    · exact refl s
  · exact refl s

theorem drainGrant (s : State) : FormFrame s s.drainGrant := by
  unfold State.drainGrant
  dsimp only
  split
  case h_2 => exact refl s
  case h_1 n _ =>
    have hdrop : FormFrame s { s.countGrant (.drain n) with drains := s.drains.set n false } :=
      (countGrant s (.drain n)).trans (of_same rfl rfl rfl rfl rfl)
    split
    · split
      · exact hdrop
      · exact hdrop.trans (holdPort _ _ _ _)
    · exact hdrop

theorem tableReadGrant (s : State) : FormFrame s s.tableReadGrant := by
  unfold State.tableReadGrant
  dsimp only
  split
  · split
    · exact (countGrant s .table).trans (of_same rfl rfl rfl rfl rfl)
    · exact (countGrant s .table).trans (of_same rfl rfl rfl rfl rfl)
    · exact refl s
  · exact refl s

theorem statusWriteGrant (s : State) : FormFrame s s.statusWriteGrant := by
  unfold State.statusWriteGrant
  split
  · split
    · exact ((countGrant s _).trans (writeStatus _ _)).trans (holdPort _ _ _ _)
    · exact refl s
  · exact refl s

theorem releaseLock (s : State) (w : Fin 16) (k : Nat) : FormFrame s (s.releaseLock w k) := of_same rfl rfl rfl rfl rfl

theorem createLock (s : State) (w : Fin 16) (k : Nat) : FormFrame s (s.createLock w k) := by
  have hevict : FormFrame s s.evictIfFull := by
    unfold State.evictIfFull
    split
    · split
      · exact of_same rfl rfl rfl rfl rfl
      · exact refl s
    · exact refl s
  unfold State.createLock
  split
  · exact refl s
  · exact hevict.trans (of_same rfl rfl rfl rfl rfl)

theorem foldl_lanes (f : State → Fin 4 → State) (h : ∀ t n, FormFrame t (f t n)) (ns : List (Fin 4)) (s : State) :
    FormFrame s (ns.foldl f s) := by
  induction ns generalizing s with
  | nil => exact refl s
  | cons n rest ih => exact (h s n).trans (ih (f s n))

theorem takeLoad (s : State) (long : LongCommand) : FormFrame s (s.takeLoad long) := by
  obtain ⟨n, _, heq⟩ | ⟨_, heq⟩ := s.takeLoad_cases long <;>
    (rw [heq]; exact of_same rfl rfl rfl rfl rfl)

/-- A command keeps the form; SOFT RESET clears the step counts and the sweep. -/
theorem carryOutCommand (s : State) (c : Command) (arg : Byte) : FormFrame s (s.carryOutCommand c arg) := by
  have hresult : ∀ (t : State) code o d, FormFrame t (t.setResult code o d) := fun t _ _ _ => of_same rfl rfl rfl rfl rfl
  have hstart : ∀ c m, FormFrame s (s.takeStart c arg m) := by
    intro c m
    unfold State.takeStart
    dsimp only
    split
    · exact hresult s _ _ _
    · split
      · exact hresult s _ _ _
      · exact (of_lane (LaneKeeps.startLane s _ m)).trans (hresult _ _ _ _)
  cases c with
  | goOffline =>
    show FormFrame s s.takeGoOffline
    unfold State.takeGoOffline
    dsimp only
    have hbegin : FormFrame s ({ s with mode := .offline }.beginLong .goOffline) := of_same rfl rfl rfl rfl rfl
    have hend : ∀ t : State, FormFrame t t.releaseAll.emptySets := fun t => of_same rfl rfl rfl rfl rfl
    exact (hbegin.trans (foldl_lanes _ (fun t n => of_lane (LaneKeeps.cutLane t n false)) _ _)).trans (hend _)
  | goQuiet =>
    show FormFrame s s.takeGoQuiet
    unfold State.takeGoQuiet
    split
    · exact hresult s _ _ _
    · have hbegin : FormFrame s ({ s with mode := .quiet }.beginLong .goQuiet) := of_same rfl rfl rfl rfl rfl
      exact hbegin.trans (foldl_lanes _ (fun t n => of_lane (LaneKeeps.quietLane t n)) _ _)
  | goOnline =>
    show FormFrame s s.takeGoOnline
    unfold State.takeGoOnline
    dsimp only
    split <;> exact of_same rfl rfl rfl rfl rfl
  | loadSettings => exact takeLoad s _
  | loadWindows => exact takeLoad s _
  | startOnce => exact hstart _ _
  | startContinuous => exact hstart _ _
  | stop =>
    show FormFrame s (s.takeStop arg)
    unfold State.takeStop
    dsimp only
    split
    · exact hresult s _ _ _
    · exact (of_lane (LaneKeeps.enterStopped s _ true)).trans (hresult _ _ _ _)
    · exact (of_lane (LaneKeeps.setLane s _ _)).trans (hresult _ _ _ _)
    · exact (of_lane (LaneKeeps.setLane s _ _)).trans (hresult _ _ _ _)
    · exact hresult s _ _ _
  | abort => exact (of_lane (LaneKeeps.cutLane s (laneOf arg) true)).trans (hresult _ _ _ _)
  | clear =>
    show FormFrame s (s.takeClear arg)
    unfold State.takeClear
    dsimp only
    split
    · exact (of_lane ((LaneKeeps.setLane s _ _).trans (LaneKeeps.enterStopped _ _ false))).trans (hresult _ _ _ _)
    · exact hresult s _ _ _
  | markChanged =>
    show FormFrame s (s.takeMarkChanged arg)
    unfold State.takeMarkChanged
    dsimp only
    split <;> exact of_same rfl rfl rfl rfl rfl
  | releaseLocks => exact of_same rfl rfl rfl rfl rfl
  | freezeFirst =>
    show FormFrame s s.takeFreezeFirst
    unfold State.takeFreezeFirst
    split <;> exact of_same rfl rfl rfl rfl rfl
  | freezeSecond =>
    show FormFrame s s.takeFreezeSecond
    unfold State.takeFreezeSecond
    split <;> exact of_same rfl rfl rfl rfl rfl
  | softReset =>
    show FormFrame s s.takeSoftReset
    exact ⟨id, id, fun n _ => by rw [(CoreReset.takeSoftReset s).stepCount n]; exact Nat.zero_le 256, List.length_map .., fun _ => Nat.zero_lt_succ 40⟩

/-- Every block at its reset values, with memory and the number of status words as they were (R176). -/
theorem blocksReset (s : State) (phase : Phase) (cause : ResetCause) : FormFrame s (s.blocksReset phase cause) :=
  ⟨id, fun _ => Nat.zero_le 4, fun n _ => by rw [(CoreReset.blocksReset s phase cause).stepCount n]; exact Nat.zero_le 256,
    List.length_map .., fun _ => Nat.zero_lt_succ 40⟩

theorem cutBurst (s : State) (late : Nat) : FormFrame s (s.cutBurst late) := by
  unfold State.cutBurst
  split
  · exact ⟨Memory.wf_writeAll _ _, id, fun _ => id, rfl, id⟩
  · exact refl s

theorem advance (s : State) : FormFrame s s.advance :=
  ⟨id, id, fun n hs => by rw [s.advance_stepCount n]; exact hs, rfl, id⟩

/-- What such a change keeps. -/
theorem laws {s t : State} (h : FormFrame s t) (hs : MemoryLaw s ∧ CountLaws s) : MemoryLaw t ∧ CountLaws t := by
  obtain ⟨hmem, hfair, hsteps, hlen, hsweep⟩ := hs
  exact ⟨h.memory hmem, h.fairness hfair, fun n => h.stepCount n (hsteps n), h.status.trans hlen, h.sweep hsweep⟩

end FormFrame

theorem form_accessKept : AccessKept fun s => MemoryLaw s ∧ CountLaws s where
  passed s hc := (FormFrame.passed s hc).laws
  memory s a w sel hs := ⟨Memory.wf_writeSel _ _ _ _ hs.1, hs.2⟩
  answer s t ht hs := by
    unfold AnswerFrame at ht
    rw [ht]
    exact hs
  addChanged s a p _ := (FormFrame.of_lane (LaneKeeps.addChanged 0 s _ _)).laws
  createLock s _ p _ _ := (FormFrame.createLock s _ _).laws
  releaseLock s w k := (FormFrame.releaseLock s w k).laws
  carryOut s c arg _ _ _ := (FormFrame.carryOutCommand s c arg).laws

theorem form_kept : Kept fun s => MemoryLaw s ∧ CountLaws s where
  queue s _ := (FormFrame.of_same rfl rfl rfl rfl rfl : FormFrame s _).laws
  wait s _ := (FormFrame.of_same rfl rfl rfl rfl rfl : FormFrame s _).laws
  atGrant s := (FormFrame.of_same rfl rfl rfl rfl rfl : FormFrame s s.atGrant).laws
  settle s := (FormFrame.of_engine (EngineFrame.settle s)).laws
  grantAccess := form_accessKept.grantAccess
  selfEnd s _ _ _ := (FormFrame.endBurst s).laws
  captureBurstEnd s := (FormFrame.captureBurstEnd s).laws
  commitBurstEnd s := (FormFrame.commitBurstEnd s).laws
  drainBurstEnd s := (FormFrame.drainBurstEnd s).laws
  tableReadEnd s := (FormFrame.tableReadEnd s).laws
  stepFetchGrant s := (FormFrame.stepFetchGrant s).laws
  captureGrant s := (FormFrame.captureGrant s).laws
  commitGrant s := (FormFrame.commitGrant s).laws
  drainGrant s := (FormFrame.drainGrant s).laws
  tableReadGrant s := (FormFrame.tableReadGrant s).laws
  statusWriteGrant s := (FormFrame.statusWriteGrant s).laws
  laneRow n s t hrow := (FormFrame.of_lane (LaneKeeps.laneRow hrow)).laws
  expireLock s w k := by
    unfold State.expireLock
    split
    · exact ((FormFrame.releaseLock s w k).trans (FormFrame.of_same rfl rfl rfl rfl rfl)).laws
    · exact id
  hardResetAssert s late hs := by
    unfold State.hardResetAssert
    split
    · exact hs
    · have hreset := ((FormFrame.cutBurst s late).trans (FormFrame.blocksReset _ .hardReset .hard)).laws hs
      unfold State.grantWaiting
      split
      · exact form_accessKept.grantAccess _ _ (fun _ => Nat.zero_lt_succ 3) hreset
      · exact hreset
  hardResetRelease s straps := by
    unfold State.hardResetRelease
    split
    · exact ((FormFrame.blocksReset s .running .hard).trans (FormFrame.of_same rfl rfl rfl rfl rfl)).laws
    · exact id
  powerOnReset s straps e hs := by
    cases e with
    | suppliesGood sram =>
      have hsteps : ∀ n, ((s.powerOnReset straps (.suppliesGood sram)).lane n).stepCount = 0 := fun n => by
        simp [State.powerOnReset, State.suppliesGood, State.powerOn, State.lane, Lane.reset]
      exact ⟨Memory.wf_writeAll sram [] rfl, Nat.zero_le 4, fun n => by rw [hsteps n]; exact Nat.zero_le 256,
        List.length_replicate .., Nat.zero_lt_succ 40⟩
    | ends =>
      unfold State.powerOnReset State.powerOnEnds
      dsimp only
      split
      · exact ((FormFrame.blocksReset s .running .powerOn).trans (FormFrame.of_same rfl rfl rfl rfl rfl)).laws hs
      · exact hs
  advance s := (FormFrame.advance s).laws

/-- Settles O60: the form of memory and the counts on one side and the settings on the other are each kept by every case. -/
theorem stepKeepsFormAndRanges : Obligations.StepKeepsFormAndRanges := by
  intro s t ⟨hmem, hcount, hset⟩ ht
  obtain ⟨hmem', hcount'⟩ := form_kept.step s t ⟨hmem, hcount⟩ ht
  exact ⟨hmem', hcount', settingsLaws_coreKept.kept.step s t hset ht⟩

end Sys2Proof.Machine
end

section
/-! PROOF. The laws of lanes, records in hand, changed sets and hold slots together: what they ask of one lane, and that the
operations on a lane keep them. The parameter H says whether the laws of the hold slots are among them, so that one development
serves the changed sets alone (StepKeepsTrackerLaws) and both together (StepKeepsHoldLaws). -/

namespace Sys2Proof.Machine

/-! ### What the laws ask of one lane -/

/-- What HoldLaws asks of lane n: its entry in hand, its FETCH step and its GET calls. -/
def LaneHolds (s : State) (n : Fin 4) (l : Lane) : Prop :=
  (∀ e ∈ l.work.heldEntry, EntryOf s n e)
  ∧ (l.work.onRecord = true → ∀ sel ∈ l.fetchSelection, FeedOf s n sel.window)
  ∧ (∀ c ∈ l.link.call, c.verb = .get → l.fetchSelection ≠ none)
  ∧ ∀ c ∈ l.link.request, c.verb = .get → l.fetchSelection ≠ none

/-- What HoldLaws asks of the slots, the locks and the drain claims. -/
structure SlotLaws (s : State) : Prop where
  entry : ∀ n, ∀ e ∈ s.slots.get n, EntryOf s n e
  kept : ∀ n, ∀ e ∈ s.slots.get n,
    s.locked e.window e.record = true ∨ s.drains.get n = true ∨ ∃ b ∈ s.port, b.user = .drain n
  claim : ∀ n, s.drains.get n = true → s.slots.get n ≠ none
  offline : s.mode = .offline → s.engine = .executing .goOffline ∨ ∀ n, s.slots.get n = none

theorem holdLaws_iff (s : State) : HoldLaws s ↔ (∀ n, LaneHolds s n (s.lane n)) ∧ SlotLaws s := by
  constructor
  · rintro ⟨h, hoff⟩
    exact ⟨fun n => ⟨(h n).2.2.1, (h n).2.2.2.1, (h n).2.2.2.2.1, (h n).2.2.2.2.2⟩,
      ⟨fun n e he => ((h n).1 e he).1, fun n e he => ((h n).1 e he).2, fun n => (h n).2.1, hoff⟩⟩
  · rintro ⟨h, hs⟩
    exact ⟨fun n => ⟨fun e he => ⟨hs.entry n e he, hs.kept n e he⟩, hs.claim n, h n⟩, hs.offline⟩

/-- Lane n of s may be l. -/
structure LaneFits (H : Prop) (s : State) (n : Fin 4) (l : Lane) : Prop where
  law : LaneLaw l
  record : RecordLaw s l
  hold : H → LaneHolds s n l

/-- The laws of lanes, LOAD WINDOWS, records and changed sets; with H those of the hold slots too. -/
structure Tracked (H : Prop) (s : State) : Prop where
  lanes : ∀ n, LaneFits H s n (s.lane n)
  offline : s.mode = .offline → ∀ n, (s.lane n).atRest = true
  load : LoadLaw s
  changed : ChangedLaws s
  slots : H → SlotLaws s

theorem tracked_false_iff (s : State) : Tracked False s ↔ TrackerLaws s :=
  ⟨fun h => ⟨⟨fun n => (h.lanes n).law, h.offline⟩, h.load, fun n => (h.lanes n).record, h.changed⟩,
    fun ⟨⟨hlaw, hoff⟩, hload, hrec, hch⟩ => ⟨fun n => ⟨hlaw n, hrec n, False.elim⟩, hoff, hload, hch, False.elim⟩⟩

theorem tracked_true_iff (s : State) : Tracked True s ↔ TrackerLaws s ∧ HoldLaws s := by
  rw [holdLaws_iff]
  exact ⟨fun h => ⟨⟨⟨fun n => (h.lanes n).law, h.offline⟩, h.load, fun n => (h.lanes n).record, h.changed⟩,
      fun n => (h.lanes n).hold trivial, h.slots trivial⟩,
    fun ⟨⟨⟨hlaw, hoff⟩, hload, hrec, hch⟩, hhold, hslots⟩ =>
      ⟨fun n => ⟨hlaw n, hrec n, fun _ => hhold n⟩, hoff, hload, hch, fun _ => hslots⟩⟩

/-! ### Lanes that fit -/

/-- A GET's selection is the selection of the step. -/
theorem Lane.selection_of_fetchSelection (l : Lane) (sel : Selection) (h : l.fetchSelection = some sel) :
    l.selection = some sel := by
  unfold Lane.fetchSelection at h
  split at h
  case h_1 hstep => rw [Lane.selection, hstep]; exact h
  case h_2 => cases h

/-- No entry is in hand without a record in hand. -/
theorem Work.heldEntry_of_not_onRecord (w : Work) (h : w.onRecord = false) : w.heldEntry = Option.none := by
  cases w <;> first | rfl | cases h

/-- The lane carries out a piece of program work between two calls: it is RUNNING or HOLDING, with no call and no request. -/
structure Lane.Free (l : Lane) : Prop where
  active : l.atRest = false
  notWaiting : l.state ≠ .waiting
  call : l.link.call = none
  request : l.link.request = none

/-- The record at the position lies in the step's selection and that in its window; with H a FETCH step's window is the lane's. -/
structure RecordFits (H : Prop) (s : State) (n : Fin 4) (l : Lane) : Prop where
  inSelection : ∀ sel ∈ l.selection, l.position < sel.first + sel.count ∧ sel.first + sel.count ≤ (s.window sel.window).count
  feed : H → ∀ sel ∈ l.fetchSelection, FeedOf s n sel.window

namespace LaneFits

variable {H : Prop} {s : State} {n : Fin 4} {l : Lane}

/-- The laws of a lane are seen through the windows alone. -/
theorem of_windows {t : State} (h : LaneFits H s n l) (ht : t.table = s.table) : LaneFits H t n l := by
  have hw : ∀ w, t.window w = s.window w := fun w => by simp only [State.window, ht]
  obtain ⟨hlaw, hrec, hhold⟩ := h
  refine ⟨hlaw, ?_, fun hH => ?_⟩
  · simp only [RecordLaw, hw] at hrec ⊢
    exact hrec
  · have := hhold hH
    simp only [LaneHolds, EntryOf, FeedOf, hw] at this ⊢
    exact this

/-- A lane with no record in hand and no call. -/
theorem off_record (hcall : l.link.call = none) (hreq : l.link.request = none) (hwork : l.work.onRecord = false)
    (hrest : l.atRest = true ∨ l.state = .waiting → l.work = .none) : LaneFits H s n l := by
  have hnocall : ¬ (l.link.call.isSome = true ∨ l.link.request.isSome = true) := by simp [hcall, hreq]
  refine ⟨⟨hrest, fun h => absurd h hnocall, fun _ => hreq⟩, fun h => ?_, fun _ => ⟨?_, fun h => ?_, ?_, ?_⟩⟩
  · rw [hwork] at h; cases h
  · rw [l.work.heldEntry_of_not_onRecord hwork]; exact nofun
  · rw [hwork] at h; cases h
  · rw [hcall]; exact nofun
  · rw [hreq]; exact nofun

/-- A lane with a record in hand and no call. -/
theorem on_record (hfree : l.Free) (hrec : RecordFits H s n l) (hentry : H → ∀ e ∈ l.work.heldEntry, EntryOf s n e) :
    LaneFits H s n l := by
  have hnocall : ¬ (l.link.call.isSome = true ∨ l.link.request.isSome = true) := by simp [hfree.call, hfree.request]
  refine ⟨⟨fun h => ?_, fun h => absurd h hnocall, fun _ => hfree.request⟩, fun _ => hrec.inSelection,
    fun hH => ⟨hentry hH, fun _ => hrec.feed hH, ?_, ?_⟩⟩
  · obtain h | h := h
    · rw [hfree.active] at h; cases h
    · exact absurd h hfree.notWaiting
  · rw [hfree.call]; exact nofun
  · rw [hfree.request]; exact nofun

/-- The lane requests a call: it begins at once or waits (R62). -/
theorem requestCall (hfree : l.Free) (hrec : RecordFits H s n l) (c : Call) (hget : c.verb = .get → l.fetchSelection ≠ none) :
    LaneFits H s n (l.requestCall c) := by
  have hsel : (l.requestCall c).selection = l.selection := by simp only [Lane.selection, Lane.requestCall_currentStep]
  have hfetch : (l.requestCall c).fetchSelection = l.fetchSelection := by
    simp only [Lane.fetchSelection, Lane.requestCall_currentStep]
  have hlink : ((l.requestCall c).link.call = some c ∧ (l.requestCall c).link.request = none)
      ∨ ((l.requestCall c).link.call = none ∧ (l.requestCall c).link.request = some c) := by
    unfold Lane.requestCall
    dsimp only
    split
    · exact Or.inl ⟨rfl, rfl⟩
    · exact Or.inr ⟨hfree.call, rfl⟩
  have hcalls : ∀ d, (d ∈ (l.requestCall c).link.call ∨ d ∈ (l.requestCall c).link.request) → d = c := by
    obtain ⟨h1, h2⟩ | ⟨h1, h2⟩ := hlink <;>
      (rw [h1, h2]; rintro d (hd | hd) <;> first | exact (Option.some.inj hd).symm | cases hd)
  refine ⟨⟨fun h => ?_, fun _ => l.requestCall_work c, fun h => ?_⟩, fun _ => ?_, fun hH => ⟨?_, fun _ => ?_, fun d hd => ?_, fun d hd => ?_⟩⟩
  · rw [Lane.requestCall_atRest, Lane.requestCall_state] at h
    obtain h | h := h
    · rw [hfree.active] at h; cases h
    · exact absurd h hfree.notWaiting
  · obtain ⟨_, h2⟩ | ⟨h1, _⟩ := hlink
    · exact h2
    · rw [h1] at h; cases h
  · rw [hsel, Lane.requestCall_position]; exact hrec.inSelection
  · rw [Lane.requestCall_work]; exact nofun
  · rw [hfetch]; exact hrec.feed hH
  · rw [hfetch, hcalls d (Or.inl hd)]; exact hget
  · rw [hfetch, hcalls d (Or.inr hd)]; exact hget

/-- A lane with the same state, work, step, position and request, and the same call or none, fits as well. -/
theorem of_same {k : Lane} (h : LaneFits H s n l) (h1 : k.state = l.state) (h2 : k.work = l.work) (h3 : k.step = l.step)
    (h4 : k.startMode = l.startMode) (h5 : k.position = l.position) (h6 : k.link.call = l.link.call ∨ k.link.call = none)
    (h7 : k.link.request = l.link.request) : LaneFits H s n k := by
  have hstep : k.currentStep = l.currentStep := by simp only [Lane.currentStep, h3, h4]
  have hrest : k.atRest = l.atRest := by simp only [Lane.atRest, h1]
  have hsome : k.link.call.isSome = true → l.link.call.isSome = true := by
    intro hk
    obtain h6 | h6 := h6
    · rw [← h6]; exact hk
    · rw [h6] at hk; cases hk
  obtain ⟨⟨hl1, hl2, hl3⟩, hrec, hhold⟩ := h
  refine ⟨⟨?_, fun hk => ?_, fun hk => ?_⟩, ?_, fun hH => ?_⟩
  · rw [hrest, h1, h2]; exact hl1
  · rw [h2]
    rw [h7] at hk
    exact hl2 (hk.imp_left hsome)
  · rw [h7]; exact hl3 (hsome hk)
  · simp only [RecordLaw, Lane.selection, hstep, h2, h5] at hrec ⊢
    exact hrec
  · obtain ⟨hh1, hh2, hh3, hh4⟩ := hhold hH
    simp only [LaneHolds, Lane.fetchSelection, hstep, h2, h7] at hh1 hh2 hh3 hh4 ⊢
    refine ⟨hh1, hh2, fun c hc => ?_, hh4⟩
    obtain h6 | h6 := h6
    · rw [h6] at hc; exact hh3 c hc
    · rw [h6] at hc; cases hc

/-- A lane without work has no call, and so fits whatever the windows are. -/
theorem of_no_work {t : State} (h : LaneFits H s n l) (hw : l.work = .none) : LaneFits H t n l := by
  have hcalls : ¬ (l.link.call.isSome = true ∨ l.link.request.isSome = true) := fun hc => by
    have := h.law.2.1 hc
    rw [hw] at this
    cases this
  rw [not_or, Bool.not_eq_true, Bool.not_eq_true, Option.isSome_eq_false_iff, Option.isSome_eq_false_iff, Option.isNone_iff_eq_none,
    Option.isNone_iff_eq_none] at hcalls
  exact off_record hcalls.1 hcalls.2 (by rw [hw]; rfl) fun _ => hw

/-- A lane that has work other than a call is free for the next piece. -/
theorem free (h : LaneFits H s n l) (hwork : l.work ≠ .none) (hcalling : l.work ≠ .calling) : l.Free := by
  have hcalls : ¬ (l.link.call.isSome = true ∨ l.link.request.isSome = true) := fun hc => hcalling (h.law.2.1 hc)
  rw [not_or, Bool.not_eq_true, Bool.not_eq_true, Option.isSome_eq_false_iff, Option.isSome_eq_false_iff, Option.isNone_iff_eq_none,
    Option.isNone_iff_eq_none] at hcalls
  exact ⟨Bool.eq_false_iff.2 fun hr => hwork (h.law.1 (Or.inl hr)), fun hw => hwork (h.law.1 (Or.inr hw)), hcalls.1, hcalls.2⟩

/-- The record that a lane has in hand fits. -/
theorem recordFits (h : LaneFits H s n l) (hwork : l.work.onRecord = true) : RecordFits H s n l :=
  ⟨h.record hwork, fun hH => (h.hold hH).2.1 hwork⟩

/-- A lane whose call is in progress is active, with that call's record in hand and no request beside it. -/
theorem of_call (h : LaneFits H s n l) {c : Call} (hc : l.link.call = some c) :
    l.work = .calling ∧ l.atRest = false ∧ l.state ≠ .waiting ∧ l.link.request = none := by
  have hsome : l.link.call.isSome = true := by rw [hc]; rfl
  have hwork := h.law.2.1 (Or.inl hsome)
  refine ⟨hwork, Bool.eq_false_iff.2 fun hr => ?_, fun hw => ?_, h.law.2.2 hsome⟩
  · have := h.law.1 (Or.inl hr); rw [hwork] at this; cases this
  · have := h.law.1 (Or.inr hw); rw [hwork] at this; cases this

end LaneFits

theorem Lane.Free.of_same {l k : Lane} (h : l.Free) (h1 : k.state = l.state) (h2 : k.link.call = l.link.call)
    (h3 : k.link.request = l.link.request) : k.Free :=
  ⟨by simpa only [Lane.atRest, h1] using h.active, by rw [h1]; exact h.notWaiting, h2.trans h.call, h3.trans h.request⟩

theorem RecordFits.of_same {H : Prop} {s : State} {n : Fin 4} {l k : Lane} (h : RecordFits H s n l) (h1 : k.step = l.step)
    (h2 : k.startMode = l.startMode) (h3 : k.position = l.position) : RecordFits H s n k := by
  have hstep : k.currentStep = l.currentStep := by simp only [Lane.currentStep, h1, h2]
  refine ⟨?_, fun hH => ?_⟩
  · rw [h3, show k.selection = l.selection by simp only [Lane.selection, hstep]]; exact h.inSelection
  · rw [show k.fetchSelection = l.fetchSelection by simp only [Lane.fetchSelection, hstep]]; exact h.feed hH

theorem RecordFits.of_windows {H : Prop} {s t : State} {n : Fin 4} {l : Lane} (h : RecordFits H s n l) (ht : t.table = s.table) :
    RecordFits H t n l := by
  have hw : ∀ w, t.window w = s.window w := fun w => by simp only [State.window, ht]
  exact ⟨by simpa only [hw] using h.inSelection, fun hH => by simpa only [FeedOf, hw] using h.feed hH⟩

/-! ### The slots -/

/-- The laws of the slots are seen from these fields; a lock, a drain claim or a drain burst may take the place of another. -/
theorem SlotLaws.of_same {s t : State} (h : SlotLaws s) (h1 : t.table = s.table) (h2 : t.slots = s.slots)
    (h3 : t.drains = s.drains) (h4 : t.mode = s.mode) (h5 : t.engine = s.engine)
    (h6 : ∀ w k, s.locked w k = true → t.locked w k = true)
    (h7 : ∀ n, s.slots.get n ≠ none → (∃ b ∈ s.port, b.user = .drain n) → ∃ b ∈ t.port, b.user = .drain n) : SlotLaws t := by
  have hw : ∀ w, t.window w = s.window w := fun w => by simp only [State.window, h1]
  obtain ⟨hentry, hkept, hclaim, hoff⟩ := h
  refine ⟨?_, fun n e he => ?_, by rw [h2, h3]; exact hclaim, by rw [h2, h4, h5]; exact hoff⟩
  · simp only [EntryOf, FeedOf, hw, h2] at hentry ⊢
    exact hentry
  · rw [h2] at he
    rw [h3]
    exact (hkept n e he).imp (h6 _ _) (Or.imp_right (h7 n (by rw [he]; exact nofun)))

/-- With every slot empty nothing is asked of the slots. -/
theorem SlotLaws.of_empty {t : State} (h : ∀ n, t.slots.get n = none) (hd : ∀ n, t.drains.get n = false) : SlotLaws t :=
  ⟨fun n _ he => (nomatch (h n).symm.trans he), fun n _ he => (nomatch (h n).symm.trans he),
    fun n hn => (nomatch (hd n).symm.trans hn), fun _ => Or.inr h⟩

theorem SlotLaws.no_claim {s : State} (h : SlotLaws s) (he : ∀ n, s.slots.get n = none) (n : Fin 4) : s.drains.get n = false :=
  Bool.eq_false_iff.2 fun hd => h.claim n hd (he n)

/-! ### One lane of the state -/

/-- A LOAD WINDOWS is in progress. -/
def State.loading (s : State) : Bool :=
  match s.engine with
  | .executing (.loadWindows _) => true
  | .executing (.drainWindows _) => true
  | _ => false

theorem loadLaw_iff (s : State) : LoadLaw s ↔ (s.loading = true → ∀ n, (s.lane n).atRest = true) := by
  cases he : s.engine with
  | idle => simp [LoadLaw, State.loading, he]
  | executing long => cases long <;> simp [LoadLaw, State.loading, he]

/-- A lane may be active: the table is, and no LOAD WINDOWS is in progress (R6, R8). -/
def State.mayRun (s : State) : Prop := s.mode ≠ .offline ∧ s.loading = false

theorem State.mayRun_of_same {s t : State} (h : s.mayRun) (h1 : t.mode = s.mode) (h2 : t.engine = s.engine) : t.mayRun := by
  unfold State.mayRun State.loading at *
  rw [h1, h2]
  exact h

/-- The changed sets are seen from the windows and whether the table is active. -/
theorem ChangedLaws.of_same {s t : State} (h : ChangedLaws s) (h1 : t.changed = s.changed) (h2 : t.table = s.table)
    (h3 : t.mode = s.mode) : ChangedLaws t := by
  simpa only [ChangedLaws, State.changedSet, State.tableActive, State.window, h1, h2, h3] using h

/-- The lane as a run begins, before its first cycle start (R110). -/
def Lane.runBegins (l : Lane) (m : StartMode) : Lane :=
  { l with stopAtCycleEnd := false, stopAtStepEnd := false, startOwed := false, triggerLatch := false, startMode := m,
           work := .none, delayTimer := none, periodTimer := if m = .period then some l.periodUnits else none,
           state := if m = .trigger then .waiting else l.state }

theorem State.beginRun_eq (s : State) (n : Fin 4) (m : StartMode) :
    s.beginRun n m =
      if m = .trigger then (s.setLane n ((s.lane n).runBegins m)).fillSets fun w => (s.window w).lane == n
      else ((s.setLane n ((s.lane n).runBegins m)).fillSets fun w => (s.window w).lane == n).startCycle n := rfl

namespace Tracked

variable {H : Prop} {s : State}

theorem mayRun (h : Tracked H s) (n : Fin 4) (hn : (s.lane n).atRest = false) : s.mayRun := by
  refine ⟨fun hm => ?_, Bool.eq_false_iff.2 fun hl => ?_⟩
  · rw [h.offline hm n] at hn; cases hn
  · rw [(loadLaw_iff s).1 h.load hl n] at hn; cases hn

/-- A change of blocks that these laws do not speak of. -/
theorem of_same {t : State} (h : Tracked H s) (h1 : t.table = s.table) (h2 : t.mode = s.mode) (h3 : t.engine = s.engine)
    (h4 : t.lanes = s.lanes) (h5 : t.changed = s.changed) (h6 : t.slots = s.slots) (h7 : t.drains = s.drains)
    (h8 : t.locks = s.locks) (h9 : t.port = s.port) : Tracked H t := by
  have hlane : ∀ n, t.lane n = s.lane n := fun n => by simp only [State.lane, h4]
  refine ⟨fun n => ?_, fun hm n => ?_, ?_, h.changed.of_same h5 h1 h2, fun hH => ?_⟩
  · rw [hlane n]; exact (h.lanes n).of_windows h1
  · rw [hlane n]; exact h.offline (by rw [← h2]; exact hm) n
  · have := h.load
    simpa only [LoadLaw, h3, hlane] using this
  · exact (h.slots hH).of_same h1 h6 h7 h2 h3 (fun w k hk => by simpa only [State.locked, h8] using hk) fun n _ hb => by rw [h9]; exact hb

/-- Lane n becomes one that fits and that may be active. -/
theorem setLane (h : Tracked H s) (n : Fin 4) (l : Lane) (hl : LaneFits H s n l) (hrun : l.atRest = false → s.mayRun) :
    Tracked H (s.setLane n l) := by
  have hrest : ∀ (P : Prop), (P → ∀ m, (s.lane m).atRest = true) → (s.mayRun → ¬ P) → P → ∀ m, ((s.setLane n l).lane m).atRest = true := by
    intro P hP hno hp m
    rw [State.lane_setLane]
    split
    · by_contra hn
      exact hno (hrun (Bool.eq_false_iff.2 hn)) hp
    · exact hP hp m
  refine ⟨fun m => ?_, ?_, ?_, h.changed, fun hH => ?_⟩
  · rw [State.lane_setLane]
    split
    case isTrue hm => rw [hm]; exact hl.of_windows rfl
    case isFalse => exact (h.lanes m).of_windows rfl
  · exact hrest _ h.offline fun hr => hr.1
  · exact (loadLaw_iff _).2 (hrest _ ((loadLaw_iff s).1 h.load) fun hr hl => nomatch hr.2.symm.trans hl)
  · exact (h.slots hH).of_same rfl rfl rfl rfl rfl (fun _ _ => id) fun _ _ => id

/-- Lane n, active already, becomes one that fits. -/
theorem setLane_active (h : Tracked H s) (n : Fin 4) (l : Lane) (hl : LaneFits H s n l) (hn : (s.lane n).atRest = false) :
    Tracked H (s.setLane n l) := h.setLane n l hl fun _ => h.mayRun n hn

/-- Lane n changes in fields that these laws do not speak of. -/
theorem setLane_same (h : Tracked H s) (n : Fin 4) (l : Lane) (h1 : l.state = (s.lane n).state) (h2 : l.work = (s.lane n).work)
    (h3 : l.step = (s.lane n).step) (h4 : l.startMode = (s.lane n).startMode) (h5 : l.position = (s.lane n).position)
    (h6 : l.link.call = (s.lane n).link.call ∨ l.link.call = none) (h7 : l.link.request = (s.lane n).link.request) :
    Tracked H (s.setLane n l) :=
  h.setLane n l ((h.lanes n).of_same h1 h2 h3 h4 h5 h6 h7) fun hn => h.mayRun n (by simpa only [Lane.atRest, h1] using hn)

theorem raise (h : Tracked H s) (e : Event) : Tracked H (s.raise e) := h.of_same rfl rfl rfl rfl rfl rfl rfl rfl rfl

/-- A record below the count is added to a changed set of an active table (R17, R20, R21). -/
theorem addChanged (h : Tracked H s) (w : Fin 16) (k : Nat) (hactive : s.tableActive = true) (hk : k < (s.window w).count) :
    Tracked H (s.addChanged w k) := by
  have hset := fun u => s.changedSet_addChanged u w k
  have hsets : ChangedLaws (s.addChanged w k) := by
    intro u
    have hwin : (s.addChanged w k).window u = s.window u := by simp only [State.window, State.addChanged_table]
    have hact : (s.addChanged w k).tableActive = s.tableActive := by simp only [State.tableActive, State.addChanged_mode]
    obtain ⟨hsorted, hbound, hempty⟩ := h.changed u
    rw [hset u, hwin, hact]
    split
    case isTrue hu =>
      obtain ⟨rfl, htracked⟩ := hu
      refine ⟨pairwise_insertIndex k _ hsorted, fun j hj => ?_, fun hno => absurd ⟨hactive, htracked⟩ hno⟩
      obtain rfl | hj := (mem_insertIndex k j _).1 hj
      · exact hk
      · exact hbound j hj
    case isFalse => exact ⟨hsorted, hbound, hempty⟩
  refine ⟨fun n => ?_, fun hm n => ?_, ?_, hsets, fun hH => ?_⟩
  · rw [show (s.addChanged w k).lane n = s.lane n by simp only [State.lane, State.addChanged_lanes]]
    exact (h.lanes n).of_windows (State.addChanged_table s w k)
  · rw [show (s.addChanged w k).lane n = s.lane n by simp only [State.lane, State.addChanged_lanes]]
    exact h.offline (by rw [← State.addChanged_mode s w k]; exact hm) n
  · have := h.load
    simpa only [LoadLaw, State.addChanged_engine, State.lane, State.addChanged_lanes] using this
  · exact (h.slots hH).of_same (State.addChanged_table s w k) (State.addChanged_slots s w k) (State.addChanged_drains s w k)
      (State.addChanged_mode s w k) (State.addChanged_engine s w k)
      (fun v j hj => by simpa only [State.locked, State.addChanged_locks] using hj) fun n _ hb => by rw [State.addChanged_port]; exact hb

/-- Sets of an active table are filled (R23, R24). -/
theorem fillSets (h : Tracked H s) (p : Fin 16 → Bool) (hactive : s.tableActive = true) : Tracked H (s.fillSets p) := by
  refine ⟨fun n => (h.lanes n).of_windows rfl, h.offline, h.load, fun u => ?_, fun hH => (h.slots hH).of_same rfl rfl rfl rfl rfl (fun _ _ => id) fun _ _ => id⟩
  rw [State.changedSet_fillSets]
  obtain ⟨hsorted, hbound, hempty⟩ := h.changed u
  split
  case isTrue ht =>
    simp only [Bool.and_eq_true] at ht
    exact ⟨List.pairwise_lt_range, fun j hj => List.mem_range.1 hj, fun hno => absurd ⟨hactive, ht.1⟩ hno⟩
  case isFalse => exact ⟨hsorted, hbound, hempty⟩

/-! ### Coming to rest, fetching, and the end of a step -/

variable {n : Fin 4}

/-- A lane at rest fits: it keeps no work, and no call once the last one has ended or been cut (R124, R125). -/
theorem rest (h : Tracked H s) (state : LaneState) (hstate : state = .stopped ∨ state = .faulted)
    (hcall : (s.lane n).link.call = none) (hreq : (s.lane n).link.request = none) :
    Tracked H (s.setLane n ((s.lane n).restAs state)) := by
  refine h.setLane n _ (LaneFits.off_record hcall hreq rfl fun _ => rfl) fun hn => ?_
  obtain rfl | rfl := hstate <;> cases hn

theorem enterStopped (h : Tracked H s) (d : Bool) (hcall : (s.lane n).link.call = none) (hreq : (s.lane n).link.request = none) :
    Tracked H (s.enterStopped n d) := by
  have hrest := h.rest .stopped (Or.inl rfl) hcall hreq
  unfold State.enterStopped
  cases d
  · exact hrest
  · exact hrest.raise _

theorem enterFaulted (h : Tracked H s) (hcall : (s.lane n).link.call = none) (hreq : (s.lane n).link.request = none) :
    Tracked H (s.enterFaulted n) := (h.rest .faulted (Or.inr rfl) hcall hreq).raise _

theorem structuralFault (h : Tracked H s) (c : ErrorCode) (i : Fin 64) (hcall : (s.lane n).link.call = none)
    (hreq : (s.lane n).link.request = none) : Tracked H (s.structuralFault n c i) := by
  have hset := h.setLane_same n { s.lane n with lastError := { code := c, step := i, node := 0xFF } } rfl rfl rfl rfl rfl
    (Or.inl rfl) rfl
  refine hset.enterFaulted ?_ ?_ <;> rw [State.lane_setLane_same] <;> assumption

theorem placeFetch (h : Tracked H s) (i : Fin 64) (hfree : (s.lane n).Free) : Tracked H (s.placeFetch n i) := by
  unfold State.placeFetch
  dsimp only
  split
  · refine h.setLane_active n _ (LaneFits.off_record hfree.call hfree.request rfl fun hr => ?_) hfree.active
    obtain hr | hr := hr
    · exact nomatch hfree.active.symm.trans hr
    · exact absurd hr hfree.notWaiting
  · have hset := h.setLane_same n { s.lane n with stepIndex := i } rfl rfl rfl rfl rfl (Or.inl rfl) rfl
    refine hset.structuralFault _ _ ?_ ?_ <;> rw [State.lane_setLane_same]
    · exact hfree.call
    · exact hfree.request

/-- A cycle start makes a lane RUNNING (R115). -/
theorem startCycle (h : Tracked H s) (hrun : s.mayRun) (hcall : (s.lane n).link.call = none)
    (hreq : (s.lane n).link.request = none) : Tracked H (s.startCycle n) := by
  rw [State.startCycle_eq]
  refine h.setLane n _ (LaneFits.off_record hcall hreq rfl fun hr => ?_) fun _ => hrun
  obtain hr | hr := hr <;> cases hr

theorem nextStep (h : Tracked H s) (i : Nat) (hfree : (s.lane n).Free) : Tracked H (s.nextStep n i) := by
  unfold State.nextStep
  split
  · exact h.enterStopped true hfree.call hfree.request
  · split
    · exact h.placeFetch _ hfree
    · exact h.structuralFault _ _ hfree.call hfree.request

theorem endStep (h : Tracked H s) (hfree : (s.lane n).Free) : Tracked H (s.endStep n) := h.nextStep _ hfree

theorem endCycle (h : Tracked H s) (hfree : (s.lane n).Free) : Tracked H (s.endCycle n) := by
  unfold State.endCycle
  dsimp only
  split
  · exact h.enterStopped true hfree.call hfree.request
  · split
    · exact h.enterStopped true hfree.call hfree.request
    · split
      · have hset := h.setLane_same n { s.lane n with startOwed := false } rfl rfl rfl rfl rfl (Or.inl rfl) rfl
        refine hset.startCycle (h.mayRun n hfree.active) ?_ ?_ <;> rw [State.lane_setLane_same]
        · exact hfree.call
        · exact hfree.request
      · exact h.setLane_active n _ (LaneFits.off_record hfree.call hfree.request rfl fun _ => rfl) hfree.active

/-! ### Cutting and starting -/

theorem cutLink (link : Link) (settings : LaneSettings) :
    (link.cut settings).call = none ∧ (link.cut settings).request = none := by
  unfold Link.cut
  split
  · exact ⟨rfl, rfl⟩
  case isFalse hc => exact ⟨by simpa using hc, rfl⟩

/-- The work of a lane is cut, and the record it owes is back in its set (R21, R104). -/
theorem cutWork (h : Tracked H s) (b : Bool) :
    Tracked H (s.cutWork n b) ∧ ((s.cutWork n b).lane n).link.call = none ∧ ((s.cutWork n b).lane n).link.request = none
      ∧ ((s.cutWork n b).lane n).work = .none ∧ ((s.cutWork n b).lane n).state = (s.lane n).state
      ∧ (s.cutWork n b).mode = s.mode ∧ (s.cutWork n b).engine = s.engine := by
  obtain ⟨hcall, hreq⟩ := cutLink (s.lane n).link (s.lane n).settings
  let l : Lane := { s.lane n with work := .none, delayTimer := none, outbound := [], inbound := [],
                                  link := (s.lane n).link.cut (s.lane n).settings }
  have hset : Tracked H (s.setLane n l) :=
    h.setLane n l (LaneFits.off_record hcall hreq rfl fun _ => rfl) fun hn => h.mayRun n hn
  have hlane : (s.setLane n l).lane n = l := State.lane_setLane_same s n l
  have hplain : Tracked H (s.setLane n l) ∧ ((s.setLane n l).lane n).link.call = none ∧ ((s.setLane n l).lane n).link.request = none
      ∧ ((s.setLane n l).lane n).work = .none ∧ ((s.setLane n l).lane n).state = (s.lane n).state
      ∧ (s.setLane n l).mode = s.mode ∧ (s.setLane n l).engine = s.engine := by
    rw [hlane]
    exact ⟨hset, hcall, hreq, rfl, rfl, rfl, rfl⟩
  unfold State.cutWork
  dsimp only
  split
  case isFalse => exact hplain
  case isTrue =>
    split
    case h_2 => exact hplain
    case h_1 w k howed =>
      obtain ⟨hset, hrest⟩ := hplain
      have hback : Tracked H ((s.setLane n l).addChanged w k) := by
        unfold Lane.owedRecord at howed
        split at howed
        case h_2 => cases howed
        case h_1 x sel hwork hstep =>
          cases howed
          have hsel : (s.lane n).selection = some sel := by rw [Lane.selection, hstep]
          have hrec := (h.lanes n).record (by rw [hwork]; rfl) sel hsel
          have hactive : (s.lane n).atRest = false := Bool.eq_false_iff.2 fun hr =>
            nomatch hwork.symm.trans ((h.lanes n).law.1 (Or.inl hr))
          exact hset.addChanged _ _ (by simpa [State.tableActive] using (h.mayRun n hactive).1)
            (Nat.lt_of_lt_of_le hrec.1 hrec.2)
      have hlane : ((s.setLane n l).addChanged w k).lane n = (s.setLane n l).lane n := by
        simp only [State.lane, State.addChanged_lanes]
      rw [hlane, State.addChanged_mode, State.addChanged_engine]
      exact ⟨hback, hrest⟩

theorem cutLane (h : Tracked H s) (b : Bool) : Tracked H (s.cutLane n b) := by
  unfold State.cutLane
  split
  · obtain ⟨hcut, hcall, hreq, _⟩ := h.cutWork (n := n) b
    exact hcut.enterStopped false hcall hreq
  · exact h

theorem beginRun (h : Tracked H s) (m : StartMode) (hrun : s.mayRun) (hcall : (s.lane n).link.call = none)
    (hreq : (s.lane n).link.request = none) : Tracked H (s.beginRun n m) := by
  have hset : Tracked H (s.setLane n ((s.lane n).runBegins m)) :=
    h.setLane n _ (LaneFits.off_record hcall hreq rfl fun _ => rfl) fun _ => hrun
  have hfill : ∀ p, Tracked H ((s.setLane n ((s.lane n).runBegins m)).fillSets p) := fun p =>
    hset.fillSets p (by simpa [State.tableActive] using hrun.1)
  have hlane : ∀ p, ((s.setLane n ((s.lane n).runBegins m)).fillSets p).lane n = (s.lane n).runBegins m :=
    fun _ => State.lane_setLane_same s n _
  rw [State.beginRun_eq]
  by_cases hm : m = .trigger
  · rw [if_pos hm]
    exact hfill _
  · rw [if_neg hm]
    refine (hfill _).startCycle (s.mayRun_of_same hrun rfl rfl) ?_ ?_ <;> rw [hlane]
    · exact hcall
    · exact hreq

/-- START of a lane while lanes may run (R110, R114). -/
theorem startLane (h : Tracked H s) (m : StartMode) (hrun : s.mayRun) : Tracked H (s.startLane n m) := by
  unfold State.startLane
  dsimp only
  split
  · obtain ⟨hcut, hcall, hreq, _, _, hmode, hengine⟩ := h.cutWork (n := n) true
    exact hcut.beginRun m (State.mayRun_of_same hrun hmode hengine) hcall hreq
  case isFalse hrest =>
    have hwork : (s.lane n).work = .none := (h.lanes n).law.1 (Or.inl (by simpa [Lane.active] using hrest))
    have hnone : ¬ ((s.lane n).link.call.isSome = true ∨ (s.lane n).link.request.isSome = true) := fun hc =>
      nomatch hwork.symm.trans ((h.lanes n).law.2.1 hc)
    simp only [not_or, Bool.not_eq_true, Option.isSome_eq_false_iff, Option.isNone_iff_eq_none] at hnone
    exact h.beginRun m hrun hnone.1 hnone.2

end Tracked

end Sys2Proof.Machine
end

section
/-! PROOF. Lane programs keep the laws of lanes, records, changed sets and hold slots: taking records, carrying out steps, and the
ends of calls. -/

namespace Sys2Proof.Machine

/-! ### Selections of steps -/

theorem Lane.selection_of_send (l : Lane) (b : Bool) (sel : Selection) (h : l.currentStep = some (.send b sel)) :
    l.selection = some sel ∧ l.fetchSelection = none := by
  simp [Lane.selection, Lane.fetchSelection, h]

theorem Lane.selection_of_fetch (l : Lane) (b : Bool) (sel : Selection) (h : l.currentStep = some (.fetch b sel)) :
    l.selection = some sel ∧ l.fetchSelection = some sel := by
  simp [Lane.selection, Lane.fetchSelection, h]

/-- Between the position and the last record there is a next one to take (R92, R96). -/
theorem Selection.next_in_selection (sel : Selection) (stop : Bool) (k : Nat) (h : ¬ (stop || decide (sel.last ≤ k)) = true) :
    k + 1 < sel.first + sel.count := by
  have hlast : ¬ sel.last ≤ k := fun hle => h (by simp [hle])
  unfold Selection.last at hlast
  omega

/-- A SEND or FETCH step that decodes selects at least one record: the selection is the one its words spell (R89, R93). -/
theorem selection_of_decodeStep (q : Quad) (m : StartMode) (sel : Selection)
    (h : (∃ b, decodeStep q m = some (.send b sel)) ∨ ∃ b, decodeStep q m = some (.fetch b sel)) : sel = selectionOf q := by
  obtain ⟨_, h⟩ | ⟨_, h⟩ := h <;>
    (unfold decodeStep at h; repeat' split at h) <;> cases h <;> rfl

namespace RecordFits

variable {H : Prop} {s : State} {n : Fin 4} {l : Lane}

theorem of_send (b : Bool) (sel : Selection) (hstep : l.currentStep = some (.send b sel))
    (hk : l.position < sel.first + sel.count) (hbound : sel.first + sel.count ≤ (s.window sel.window).count) :
    RecordFits H s n l := by
  obtain ⟨hsel, hfetch⟩ := l.selection_of_send b sel hstep
  refine ⟨fun x hx => ?_, fun _ => by rw [hfetch]; exact nofun⟩
  rw [hsel] at hx
  cases hx
  exact ⟨hk, hbound⟩

theorem of_fetch (b : Bool) (sel : Selection) (hstep : l.currentStep = some (.fetch b sel))
    (hk : l.position < sel.first + sel.count) (hbound : sel.first + sel.count ≤ (s.window sel.window).count)
    (hfeed : H → FeedOf s n sel.window) : RecordFits H s n l := by
  obtain ⟨hsel, hfetch⟩ := l.selection_of_fetch b sel hstep
  refine ⟨fun x hx => ?_, fun hH x hx => ?_⟩
  · rw [hsel] at hx
    cases hx
    exact ⟨hk, hbound⟩
  · rw [hfetch] at hx
    cases hx
    exact hfeed hH

/-- A step without a selection has no record in hand. -/
theorem of_no_selection (h : l.selection = none) : RecordFits H s n l :=
  ⟨by rw [h]; exact nofun, fun _ sel hsel => (nomatch h.symm.trans (l.selection_of_fetchSelection sel hsel))⟩

end RecordFits

namespace LaneFits

variable {H : Prop} {s : State} {n : Fin 4} {l : Lane}

theorem no_call (h : LaneFits H s n l) (hw : l.work ≠ .calling) : l.link.call = none ∧ l.link.request = none := by
  have hcalls : ¬ (l.link.call.isSome = true ∨ l.link.request.isSome = true) := fun hc => hw (h.law.2.1 hc)
  simpa only [not_or, Bool.not_eq_true, Option.isSome_eq_false_iff, Option.isNone_iff_eq_none] using hcalls

/-- The position may move within the selection. -/
theorem at_position (h : LaneFits H s n l) (k : Nat) (hk : ∀ sel ∈ l.selection, k < sel.first + sel.count) :
    LaneFits H s n { l with position := k } :=
  ⟨h.law, fun hw sel hsel => ⟨hk sel hsel, (h.record hw sel hsel).2⟩, h.hold⟩

/-- A waiting request begins as a call (R62). -/
theorem beginCall (h : LaneFits H s n l) (c : Call) (hc : l.link.request = some c) : LaneFits H s n (l.beginCall c) := by
  have hwork : l.work = .calling := h.law.2.1 (Or.inr (by rw [hc]; rfl))
  refine ⟨⟨h.law.1, fun _ => hwork, fun _ => rfl⟩, h.record, fun hH => ?_⟩
  obtain ⟨hh1, hh2, hh3, hh4⟩ := h.hold hH
  refine ⟨hh1, hh2, fun d hd hget => ?_, nofun⟩
  cases hd
  exact hh4 c hc hget

end LaneFits

theorem State.addChanged_lane (s : State) (w : Fin 16) (k : Nat) (n : Fin 4) : (s.addChanged w k).lane n = s.lane n := by
  simp only [State.lane, State.addChanged_lanes]

namespace Tracked

variable {H : Prop} {s : State} {n : Fin 4}

theorem requestCall (h : Tracked H s) (c : Call) (hfree : (s.lane n).Free) (hrec : RecordFits H s n (s.lane n))
    (hget : c.verb = .get → (s.lane n).fetchSelection ≠ none) : Tracked H (s.requestCall n c) :=
  h.setLane_active n _ (LaneFits.requestCall hfree hrec c hget) hfree.active

/-! ### Taking records -/

theorem takeSend (h : Tracked H s) (b : Bool) (sel : Selection) (k : Nat) (hfree : (s.lane n).Free)
    (hstep : (s.lane n).currentStep = some (.send b sel)) (hbound : sel.first + sel.count ≤ (s.window sel.window).count)
    (hk : k < sel.first + sel.count) : Tracked H (s.takeSend n b sel k) := by
  have hclaim : ∀ i, i < sel.first + sel.count → Tracked H (s.setLane n { s.lane n with position := i, work := .captureClaim }) :=
    fun i hi => h.setLane_active n _ (LaneFits.on_record (hfree.of_same rfl rfl rfl)
      (RecordFits.of_send b sel hstep hi hbound) fun _ => nofun) hfree.active
  unfold State.takeSend
  dsimp only
  cases b
  · exact hclaim k hk
  · rw [if_pos rfl]
    cases hfind : (List.range' k (if (s.lane n).stopAtStepEnd then 1 else sel.last + 1 - k)).find?
        fun i => (s.changedSet sel.window).contains i with
    | some i =>
      refine hclaim i ?_
      have hmem := List.mem_range'_1.1 (List.mem_of_find?_eq_some hfind)
      unfold Selection.last at hmem
      split at hmem <;> omega
    | none =>
      have hlast : sel.last < sel.first + sel.count := by unfold Selection.last; omega
      have hset : Tracked H (s.setLane n { s.lane n with position := sel.last }) := by
        refine h.setLane_active n _ ((h.lanes n).at_position _ fun x hx => ?_) hfree.active
        rw [((s.lane n).selection_of_send true sel hstep).1] at hx
        cases hx
        exact hlast
      refine hset.endStep ?_
      rw [State.lane_setLane_same]
      exact hfree.of_same rfl rfl rfl

theorem takeFetch (h : Tracked H s) (b : Bool) (sel : Selection) (k : Nat) (hfree : (s.lane n).Free)
    (hstep : (s.lane n).currentStep = some (.fetch b sel)) (hbound : sel.first + sel.count ≤ (s.window sel.window).count)
    (hk : k < sel.first + sel.count) (hfeed : H → FeedOf s n sel.window) : Tracked H (s.takeFetch n b sel k) := by
  unfold State.takeFetch State.requestCall
  dsimp only
  rw [State.lane_setLane_same, State.setLane_setLane]
  have hsel := (Lane.selection_of_fetch { s.lane n with position := k, inbound := [] } b sel hstep).2
  have hrec : RecordFits H s n { s.lane n with position := k, inbound := [] } := RecordFits.of_fetch b sel hstep hk hbound hfeed
  have hf : Lane.Free { s.lane n with position := k, inbound := [] } := hfree.of_same rfl rfl rfl
  exact h.setLane_active n _ (LaneFits.requestCall hf hrec _ fun _ hnone => (nomatch hsel.symm.trans hnone)) hfree.active

/-- The record in hand is handled: the step ends, or its next record is taken (R92, R96). -/
theorem recordDone (h : Tracked H s) (hfree : (s.lane n).Free) (hrec : RecordFits H s n (s.lane n)) : Tracked H (s.recordDone n) := by
  unfold State.recordDone
  dsimp only
  split
  case h_1 b sel hstep =>
    split
    · exact h.endStep hfree
    case isFalse hgo =>
      obtain ⟨hk, hbound⟩ := hrec.inSelection sel ((s.lane n).selection_of_send b sel hstep).1
      exact h.takeSend b sel _ hfree hstep hbound (sel.next_in_selection _ _ hgo)
  case h_2 b sel hstep =>
    split
    · exact h.endStep hfree
    case isFalse hgo =>
      obtain ⟨hsel, hfetch⟩ := (s.lane n).selection_of_fetch b sel hstep
      exact h.takeFetch b sel _ hfree hstep (hrec.inSelection sel hsel).2 (sel.next_in_selection _ _ hgo) fun hH => hrec.feed hH sel hfetch
  case h_3 => exact h.endStep hfree

theorem commitResolved (h : Tracked H s) (e : HoldEntry) (hfree : (s.lane n).Free) (hrec : RecordFits H s n (s.lane n)) :
    Tracked H (s.commitResolved n e) := by
  have hset := h.setLane_same n { s.lane n with inbound := [] } rfl rfl rfl rfl rfl (Or.inl rfl) rfl
  have hlane : (s.setLane n { s.lane n with inbound := [] }).lane n = { s.lane n with inbound := [] } := State.lane_setLane_same s n _
  unfold State.commitResolved
  dsimp only
  split
  · refine hset.enterFaulted ?_ ?_ <;> rw [hlane]
    · exact hfree.call
    · exact hfree.request
  · refine hset.recordDone ?_ ?_ <;> rw [hlane]
    · exact hfree.of_same rfl rfl rfl
    · exact (hrec.of_same (k := { s.lane n with inbound := [] }) rfl rfl rfl).of_windows rfl

/-! ### Carrying out a step -/

/-- The checks of R85 on the selection of a step: it lies in its window, and a FETCH step's window is a used feed window of the
lane. -/
theorem selectionFits_iff (e : WindowEntry) (n : Fin 4) (kind : WindowKind) (sel : Selection) :
    selectionFits e n kind sel = true ↔ e.used = true ∧ e.kind = kind ∧ e.lane = n ∧ sel.first + sel.count ≤ e.count
      ∧ (sel.node = 63 ∨ sel.node.toNat + sel.count - 1 ≤ 62) := by
  simp only [selectionFits, Bool.and_eq_true, Bool.or_eq_true, beq_iff_eq, decide_eq_true_eq]
  tauto

/-- A step that has passed its checks (R83 to R85) is the one the lane's step copy decodes to. -/
theorem decodeStep_of_checkedStep (q : Quad) (step : Step) (h : s.checkedStep n q = some step) :
    decodeStep q (s.lane n).startMode = some step := by
  unfold State.checkedStep at h
  split at h
  case h_1 hd => split at h <;> cases h; exact hd
  case h_2 hd => split at h <;> cases h; exact hd
  case h_3 => exact h

theorem bound_of_checkedStep_send (q : Quad) (b : Bool) (sel : Selection) (h : s.checkedStep n q = some (.send b sel)) :
    sel.first + sel.count ≤ (s.window sel.window).count := by
  have hd := decodeStep_of_checkedStep q _ h
  simp only [State.checkedStep, hd] at h
  split at h
  case isTrue hc =>
    rw [Bool.and_eq_true, selectionFits_iff] at hc
    exact hc.1.2.2.2.1
  case isFalse => cases h

theorem fits_of_checkedStep_fetch (q : Quad) (b : Bool) (sel : Selection) (h : s.checkedStep n q = some (.fetch b sel)) :
    sel.first + sel.count ≤ (s.window sel.window).count ∧ FeedOf s n sel.window := by
  have hd := decodeStep_of_checkedStep q _ h
  simp only [State.checkedStep, hd] at h
  split at h
  case isTrue hc =>
    obtain ⟨hused, hkind, hlane, hbound, _⟩ := (selectionFits_iff _ _ _ _).1 hc
    exact ⟨hbound, hused, hkind, hlane⟩
  case isFalse => cases h

/-- A fetched step that has passed its checks is carried out (R89, R93, R97 to R103). -/
theorem carryOut (h : Tracked H s) (q : Quad) (step : Step) (hfree : (s.lane n).Free) (hq : (s.lane n).step = some q)
    (hcheck : s.checkedStep n q = some step) : Tracked H (s.carryOut n step) := by
  have hdecode := decodeStep_of_checkedStep q step hcheck
  have hstep : (s.lane n).currentStep = some step := by simp only [Lane.currentStep, hq, hdecode]
  have hcopy : ∀ w, Tracked H (s.setLane n { s.lane n with entry := some (s.window w) })
      ∧ ((s.setLane n { s.lane n with entry := some (s.window w) }).lane n).Free
      ∧ ((s.setLane n { s.lane n with entry := some (s.window w) }).lane n).currentStep = some step := by
    intro w
    rw [State.lane_setLane_same]
    exact ⟨h.setLane_same n { s.lane n with entry := some (s.window w) } rfl rfl rfl rfl rfl (Or.inl rfl) rfl,
      hfree.of_same rfl rfl rfl, hstep⟩
  have hcount : ∀ sel, sel = selectionOf q → sel.first < sel.first + sel.count := by
    rintro sel rfl
    exact Nat.lt_add_of_pos_right (Nat.succ_pos _)
  cases step with
  | send b sel =>
    obtain ⟨hset, hf, hs⟩ := hcopy sel.window
    have hfirst := hcount sel (selection_of_decodeStep q _ sel (Or.inl ⟨b, hdecode⟩))
    have hbound := bound_of_checkedStep_send q b sel hcheck
    exact hset.takeSend b sel _ hf hs hbound hfirst
  | fetch b sel =>
    obtain ⟨hset, hf, hs⟩ := hcopy sel.window
    have hfirst := hcount sel (selection_of_decodeStep q _ sel (Or.inr ⟨b, hdecode⟩))
    obtain ⟨hbound, hfeed⟩ := fits_of_checkedStep_fetch q b sel hcheck
    exact hset.takeFetch b sel _ hf hs hbound hfirst fun _ => hfeed
  | inline node words =>
    exact h.requestCall _ hfree (RecordFits.of_no_selection (by simp only [Lane.selection, hstep])) nofun
  | pulse mark =>
    have hset := h.setLane_same n (s.lane n).pulsed rfl rfl rfl rfl rfl (Or.inl rfl) rfl
    have hf : ((s.setLane n (s.lane n).pulsed).lane n).Free := by
      rw [State.lane_setLane_same]
      exact hfree.of_same rfl rfl rfl
    cases mark
    · exact hset.endStep hf
    · exact (hset.raise _).endStep hf
  | wait delay =>
    refine h.setLane_active n _ (LaneFits.off_record hfree.call hfree.request rfl fun hr => ?_) hfree.active
    obtain hr | hr := hr
    · exact nomatch hfree.active.symm.trans hr
    · exact absurd hr hfree.notWaiting
  | waitTrigger =>
    have hset := h.setLane_same n { s.lane n with triggerLatch := false } rfl rfl rfl rfl rfl (Or.inl rfl) rfl
    show Tracked H (if (s.lane n).triggerLatch then _ else _)
    split
    · refine hset.endStep ?_
      rw [State.lane_setLane_same]
      exact hfree.of_same rfl rfl rfl
    · refine h.setLane_active n _ (LaneFits.off_record hfree.call hfree.request rfl fun hr => ?_) hfree.active
      obtain hr | hr := hr
      · exact nomatch hfree.active.symm.trans hr
      · exact absurd hr hfree.notWaiting
  | jump target => exact h.nextStep _ hfree
  | finish => exact h.endCycle hfree

theorem fetchStep (h : Tracked H s) (hfree : (s.lane n).Free) : Tracked H (s.fetchStep n) := by
  let l : Lane := { s.lane n with step := some (Memory.readQuad s.mem (s.lane n).stepAddr), entry := none, work := .none }
  have hactive : ¬ (l.atRest = true ∨ l.state = .waiting) := by
    rintro (hr | hr)
    · exact nomatch hfree.active.symm.trans hr
    · exact hfree.notWaiting hr
  have hset : Tracked H (s.setLane n l) :=
    h.setLane_active n l (LaneFits.off_record hfree.call hfree.request rfl fun hr => absurd hr hactive) hfree.active
  have hlane : (s.setLane n l).lane n = l := State.lane_setLane_same s n l
  have hf : ((s.setLane n l).lane n).Free := by rw [hlane]; exact hfree.of_same rfl rfl rfl
  unfold State.fetchStep
  dsimp only
  split
  case h_1 step hcheck => exact hset.carryOut _ step hf (by rw [hlane]) hcheck
  case h_2 => exact hset.structuralFault _ _ hf.call hf.request

/-! ### The ends of calls -/

theorem callHandled (h : Tracked H s) (o : CallOutcome) (hfree : (s.lane n).Free) (hrec : RecordFits H s n (s.lane n)) :
    Tracked H (s.callHandled n o) := by
  unfold State.callHandled
  split
  · exact h.enterFaulted hfree.call hfree.request
  · exact h.recordDone hfree hrec

/-- A call in progress ends (R70): the record is handled, or the GET's entry claims its commit (R94, R95). -/
theorem endCall (h : Tracked H s) (c : Call) (o : CallOutcome) (st : Option (BitVec 6)) (hc : (s.lane n).link.call = some c) :
    Tracked H (s.endCall n c o st) := by
  obtain ⟨hwork, hactive, hwait, hreq⟩ := (h.lanes n).of_call hc
  have hrec := (h.lanes n).recordFits (by rw [hwork]; rfl)
  let l : Lane := { (s.lane n).recordOutcome c.node o st with
                    link := ((s.lane n).recordOutcome c.node o st).link.toIdle, outbound := [] }
  have hfree : l.Free := ⟨hactive, hwait, rfl, hreq⟩
  have hfits : RecordFits H s n l := hrec.of_same rfl rfl rfl
  have hset : Tracked H (s.setLane n l) := h.setLane_same n l rfl rfl rfl rfl rfl (Or.inr rfl) rfl
  have hlane : (s.setLane n l).lane n = l := State.lane_setLane_same s n l
  have hplain : Tracked H ((s.setLane n l).callHandled n o) := by
    refine hset.callHandled o ?_ ?_ <;> rw [hlane]
    · exact hfree
    · exact hfits.of_windows rfl
  have hactiveTable : s.tableActive = true := by simpa [State.tableActive] using (h.mayRun n hactive).1
  unfold State.endCall
  dsimp only
  split
  case h_1 sel hverb hsel =>
    refine h.setLane_active n _ (LaneFits.on_record (hfree.of_same rfl rfl rfl) (hfits.of_same rfl rfl rfl) fun hH e he => ?_) hactive
    obtain ⟨_, hfeed, hget, _⟩ := (h.lanes n).hold hH
    obtain ⟨sel', hsel'⟩ := Option.ne_none_iff_exists'.1 (hget c hc hverb)
    have hsame : sel' = sel := Option.some.inj (((s.lane n).selection_of_fetchSelection sel' hsel').symm.trans hsel)
    subst hsame
    cases he
    have hin := hrec.inSelection sel' hsel
    exact ⟨hfeed (by rw [hwork]; rfl) sel' hsel', Nat.lt_of_lt_of_le hin.1 hin.2, rfl⟩
  case h_2 sel hverb hsel =>
    split
    case isTrue =>
      have hin := hrec.inSelection sel hsel
      have hback := hset.addChanged sel.window l.position hactiveTable (Nat.lt_of_lt_of_le hin.1 hin.2)
      have hlane' : ((s.setLane n l).addChanged sel.window l.position).lane n = l := by
        rw [State.addChanged_lane, hlane]
      refine hback.callHandled o ?_ ?_ <;> rw [hlane']
      · exact hfree
      · exact hfits.of_windows (State.addChanged_table _ _ _)
    case isFalse => exact hplain
  case h_3 => exact hplain

/-! ### Retries, stops, ticks and edges -/

theorem retryHeld (h : Tracked H s) : Tracked H (s.retryHeld n) := by
  unfold State.retryHeld
  dsimp only
  split
  case h_1 e hstate hwork =>
    have hfree := (h.lanes n).free (by rw [hwork]; exact nofun) (by rw [hwork]; exact nofun)
    refine h.setLane_active n _ (LaneFits.on_record ⟨rfl, nofun, hfree.call, hfree.request⟩
      (((h.lanes n).recordFits (by rw [hwork]; rfl)).of_same rfl rfl rfl) fun hH => ?_) hfree.active
    have hentry := ((h.lanes n).hold hH).1
    rw [hwork] at hentry
    exact hentry
  case h_2 => exact h

theorem quietLane (h : Tracked H s) (n : Fin 4) : Tracked H (s.quietLane n) := by
  have hstop : (s.lane n).work ≠ .calling → Tracked H (s.enterStopped n true) := fun hw => by
    obtain ⟨hcall, hreq⟩ := (h.lanes n).no_call hw
    exact h.enterStopped true hcall hreq
  unfold State.quietLane
  dsimp only
  split
  case h_1 hstate => exact hstop (by rw [(h.lanes n).law.1 (Or.inr hstate)]; exact nofun)
  case h_4 => exact h
  case h_5 => exact h
  all_goals
    split
    case h_1 hw => exact hstop (by rw [hw]; exact nofun)
    case h_2 hw => exact hstop (by rw [hw]; exact nofun)
    case h_3 hw => exact hstop (by rw [hw]; exact nofun)
    all_goals exact h.setLane_same n _ rfl rfl rfl rfl rfl (Or.inl rfl) rfl

theorem owe (h : Tracked H s) (n : Fin 4) : Tracked H (s.owe n) :=
  (h.setLane_same n { s.lane n with startOwed := true } rfl rfl rfl rfl rfl (Or.inl rfl) rfl).raise _

/-- A WAITING lane begins a cycle (R112, R113, R115). -/
theorem startCycle_waiting (h : Tracked H s) (hstate : (s.lane n).state = .waiting) : Tracked H (s.startCycle n) := by
  obtain ⟨hcall, hreq⟩ := (h.lanes n).no_call (by rw [(h.lanes n).law.1 (Or.inr hstate)]; exact nofun)
  exact h.startCycle (h.mayRun n (by simp [Lane.atRest, hstate])) hcall hreq

theorem edgeAtLane (h : Tracked H s) (n : Fin 4) : Tracked H (s.edgeAtLane n) := by
  have hlatch := h.setLane_same n { s.lane n with triggerLatch := true } rfl rfl rfl rfl rfl (Or.inl rfl) rfl
  have hwait : Tracked H (if (s.lane n).work = .triggerWait then s.endStep n
      else s.setLane n { s.lane n with triggerLatch := true }) := by
    split
    case isTrue hw => exact h.endStep ((h.lanes n).free (by rw [hw]; exact nofun) (by rw [hw]; exact nofun))
    case isFalse => exact hlatch
  unfold State.edgeAtLane
  dsimp only
  split
  case h_1 hstate _ => exact h.startCycle_waiting hstate
  case h_2 => exact h.owe n
  case h_3 => exact h.owe n
  case h_4 => exact hlatch
  case h_5 => exact hlatch
  case h_6 => exact hwait
  case h_7 => exact hwait
  case h_8 => exact hlatch
  case h_9 => exact hlatch
  all_goals exact h

theorem periodTick (h : Tracked H s) (n : Fin 4) : Tracked H (s.periodTick n) := by
  have hset := h.setLane_same n { s.lane n with periodTimer := some (s.lane n).periodUnits } rfl rfl rfl rfl rfl (Or.inl rfl) rfl
  unfold State.periodTick
  dsimp only
  split
  · exact h
  · split
    case h_1 hstate => exact hset.startCycle_waiting (by rw [State.lane_setLane_same]; exact hstate)
    case h_2 => exact hset.owe n
    case h_3 => exact hset.owe n
    all_goals exact h

theorem getAccepted (h : Tracked H s) (c : Call) (w : Word) (hc : (s.lane n).link.call = some c) :
    Tracked H (s.getAccepted n c w) := by
  unfold State.getAccepted
  dsimp only
  split
  · exact h.endCall c _ _ hc
  · exact h.setLane_same n _ rfl rfl rfl rfl rfl (Or.inl rfl) rfl

/-- Every row of a lane keeps the laws. -/
theorem laneRow (h : Tracked H s) {t : State} (hrow : LaneRow n s t) : Tracked H t := by
  cases hrow with
  | callBegin =>
    unfold State.callBegin
    dsimp only
    split
    case h_1 c _ hc =>
      have hwork : (s.lane n).work = .calling := (h.lanes n).law.2.1 (Or.inr (by rw [hc]; rfl))
      refine h.setLane_active n _ ((h.lanes n).beginCall c hc) (Bool.eq_false_iff.2 fun hr => ?_)
      exact nomatch hwork.symm.trans ((h.lanes n).law.1 (Or.inl hr))
    case h_2 => exact h
  | replyReceived w p =>
    unfold State.replyReceived
    dsimp only
    split
    case isFalse => exact h
    case isTrue =>
      split
      case h_2 => exact h
      case h_1 c hc =>
        split
        · exact h.endCall c _ _ hc
        · exact h.endCall c _ _ hc
        · by_cases hgood : (goodWord w p && replyAccept w) = true
          · rw [if_pos hgood]; exact h.getAccepted c w hc
          · rw [if_neg hgood]; exact h.endCall c _ _ hc
  | dataWordReceived w p =>
    unfold State.dataWordReceived
    dsimp only
    split
    case isFalse => exact h
    case isTrue =>
      split
      case h_2 => exact h
      case h_1 c reply hc _ =>
        have hset : ∀ (inb : List Word) (link : Link), link.call = (s.lane n).link.call → link.request = (s.lane n).link.request →
            Tracked H (s.setLane n { s.lane n with inbound := inb, link := link.awaitData }) := fun inb link h1 h2 =>
          h.setLane_same n _ rfl rfl rfl rfl rfl (Or.inl h1) h2
        by_cases hlast : (s.lane n).link.expected ≤ (s.lane n).link.taken + 1
        · rw [if_pos hlast]
          refine Tracked.endCall (hset (if goodWord w p then (s.lane n).inbound ++ [w] else (s.lane n).inbound)
            { (s.lane n).link with taken := (s.lane n).link.taken + 1,
                                   dataBad := (s.lane n).link.dataBad || !goodWord w p } rfl rfl) c _ _ ?_
          rw [State.lane_setLane_same]
          exact hc
        · rw [if_neg hlast]
          exact hset _ _ rfl rfl
  | replyWaitTimeout =>
    unfold State.replyWaitTimeout
    dsimp only
    split
    · split
      case h_1 c hc => exact h.endCall c _ _ hc
      case h_2 => exact h
    · exact h
  | dataWaitTimeout =>
    unfold State.dataWaitTimeout
    dsimp only
    split
    case h_1 c _ _ hc _ => exact h.endCall c _ _ hc
    case h_2 => exact h
  | broadcastTailEnd =>
    unfold State.broadcastTailEnd
    dsimp only
    split
    · split
      case h_1 c hc => exact h.endCall c _ _ hc
      case h_2 => exact h
    · exact h
  | abortMarkEnd =>
    unfold State.abortMarkEnd
    dsimp only
    split
    · exact h.setLane_same n _ rfl rfl rfl rfl rfl (Or.inr rfl) rfl
    · exact h
  | periodTick => exact h.periodTick n
  | waitDelayExpiry =>
    unfold State.waitDelayExpiry
    dsimp only
    split
    case isTrue hw =>
      have hset := h.setLane_same n { s.lane n with delayTimer := none } rfl rfl rfl rfl rfl (Or.inl rfl) rfl
      refine hset.endStep ?_
      rw [State.lane_setLane_same]
      exact ((h.lanes n).free (by rw [hw]; exact nofun) (by rw [hw]; exact nofun)).of_same rfl rfl rfl
    case isFalse => exact h
  | pulseRunOut => exact h.setLane_same n _ rfl rfl rfl rfl rfl (Or.inl rfl) rfl
  | edgeAtLane => exact h.edgeAtLane n

end Tracked

end Sys2Proof.Machine
end

section
/-! PROOF. Bursts, grants, locks and the finish of long commands keep the laws of lanes, records, changed sets and hold slots. -/

namespace Sys2Proof.Machine

/-! ### The slots -/

theorem State.slotsEmpty_iff (s : State) : s.slotsEmpty = true ↔ ∀ n, s.slots.get n = none := by
  simp only [State.slotsEmpty, List.all_eq_true, Option.isNone_iff_eq_none]
  exact ⟨fun h n => h n (mem_laneList n), fun h n _ => h n⟩

theorem State.allAtRest_iff (s : State) : s.allAtRest = true ↔ ∀ n, (s.lane n).atRest = true := by
  simp only [State.allAtRest, List.all_eq_true]
  exact ⟨fun h n => h n (mem_laneList n), fun h n _ => h n⟩

theorem slotHolds_some (e : HoldEntry) : slotHolds (some e) e.window e.record = true := by
  simp [slotHolds]

theorem slotHolds_iff (slot : Option HoldEntry) (w : Fin 16) (k : Nat) :
    slotHolds slot w k = true ↔ ∃ e, slot = some e ∧ e.window = w ∧ e.record = k := by
  cases slot <;> simp [slotHolds]

/-- A released record's lock is gone, and no other lock. -/
theorem State.locked_releaseLock (s : State) (w v : Fin 16) (k j : Nat) :
    (s.releaseLock w k).locked v j = (s.locked v j && !(w == v && k == j)) := by
  have hnames : ∀ l : LockEntry, l.names v j = true → (l.names w k = true ↔ (w == v && k == j) = true) := by
    intro l hl
    simp only [LockEntry.names, Bool.and_eq_true, beq_iff_eq] at hl ⊢
    rw [hl.1, hl.2]
    exact and_congr eq_comm eq_comm
  show ((s.locks.filter fun l => !l.names w k).any fun l => l.names v j) = _
  rw [Bool.eq_iff_iff]
  simp only [State.locked, Bool.and_eq_true, List.any_eq_true, List.mem_filter, Bool.not_eq_true', Bool.eq_false_iff]
  constructor
  · rintro ⟨l, ⟨hl, hw⟩, hv⟩
    exact ⟨⟨l, hl, hv⟩, fun he => hw ((hnames l hv).2 he)⟩
  · rintro ⟨⟨l, hl, hv⟩, hne⟩
    exact ⟨l, ⟨hl, fun hw => hne ((hnames l hv).1 hw)⟩, hv⟩

/-- Within the slots, a release replaces the lock of a held record by its drain claim (R33 to R35, R47). -/
theorem SlotLaws.releaseLock {s : State} (h : SlotLaws s) (w : Fin 16) (k : Nat) : SlotLaws (s.releaseLock w k) := by
  refine ⟨h.entry, fun n e he => ?_, fun n hn => ?_, h.offline⟩
  · rw [State.locked_releaseLock, show (s.releaseLock w k).drains.get n = (s.drains.get n || slotHolds (s.slots.get n) w k) from
      Four.get_ofFn _ n]
    obtain hl | hd | hp := h.kept n e he
    · by_cases hsame : w = e.window ∧ k = e.record
      · refine Or.inr (Or.inl ?_)
        rw [Bool.or_eq_true, slotHolds_iff]
        exact Or.inr ⟨e, he, hsame.1.symm, hsame.2.symm⟩
      · refine Or.inl ?_
        rw [hl, Bool.true_and, Bool.not_eq_true', Bool.eq_false_iff]
        simpa using hsame
    · exact Or.inr (Or.inl (by rw [hd]; rfl))
    · exact Or.inr (Or.inr hp)
  · rw [show (s.releaseLock w k).drains.get n = (s.drains.get n || slotHolds (s.slots.get n) w k) from Four.get_ofFn _ n,
      Bool.or_eq_true, slotHolds_iff] at hn
    obtain hd | ⟨e, he, _⟩ := hn
    · exact h.claim n hd
    · show s.slots.get n ≠ none
      rw [he]
      exact nofun

/-- With every lock released every occupied slot claims its drain (R36). -/
theorem SlotLaws.releaseAll {s : State} (h : SlotLaws s) : SlotLaws s.releaseAll := by
  have hdrain : ∀ n, s.releaseAll.drains.get n = (s.drains.get n || (s.slots.get n).isSome) := fun n => Four.get_ofFn _ n
  refine ⟨h.entry, fun n e he => Or.inr (Or.inl ?_), fun n hn => ?_, h.offline⟩
  · have : s.slots.get n = some e := he
    rw [hdrain, this, Option.isSome_some, Bool.or_true]
  · rw [hdrain, Bool.or_eq_true, Option.isSome_iff_ne_none] at hn
    exact hn.elim (h.claim n) id

theorem State.lane_endBurst (s : State) (n : Fin 4) : s.endBurst.lane n = s.lane n := by simp [State.lane]

namespace Tracked

variable {H : Prop} {s : State}

/-! ### Blocks that keep windows, lanes and sets -/

/-- Locks, claims and the port change: the laws of the slots are to be shown. -/
theorem of_slots {t : State} (h : Tracked H s) (h1 : t.table = s.table) (h2 : t.mode = s.mode) (h3 : t.engine = s.engine)
    (h4 : t.lanes = s.lanes) (h5 : t.changed = s.changed) (hslots : H → SlotLaws t) : Tracked H t := by
  have hlane : ∀ n, t.lane n = s.lane n := fun n => by simp only [State.lane, h4]
  refine ⟨fun n => ?_, fun hm n => ?_, ?_, h.changed.of_same h5 h1 h2, hslots⟩
  · rw [hlane n]; exact (h.lanes n).of_windows h1
  · rw [hlane n]; exact h.offline (by rw [← h2]; exact hm) n
  · have := h.load
    simpa only [LoadLaw, h3, hlane] using this

/-- The burst on the port changes: an occupied slot's drain burst stays. -/
theorem of_port {t : State} (h : Tracked H s) (h1 : t.table = s.table) (h2 : t.mode = s.mode) (h3 : t.engine = s.engine)
    (h4 : t.lanes = s.lanes) (h5 : t.changed = s.changed) (h6 : t.slots = s.slots) (h7 : t.drains = s.drains)
    (h8 : t.locks = s.locks)
    (h9 : ∀ n, s.slots.get n ≠ none → (∃ b ∈ s.port, b.user = .drain n) → ∃ b ∈ t.port, b.user = .drain n) : Tracked H t :=
  h.of_slots h1 h2 h3 h4 h5 fun hH =>
    (h.slots hH).of_same h1 h6 h7 h2 h3 (fun w k hk => by simpa only [State.locked, h8] using hk) h9

/-- A burst takes the free port. -/
theorem holdPort (h : Tracked H s) (hport : s.port = none) (u : BurstUser) (k : Nat) (ws : List (Addr × Word)) :
    Tracked H (s.holdPort u k ws) :=
  h.of_port rfl rfl rfl rfl rfl rfl rfl rfl fun n _ hb => by rw [hport] at hb; simp at hb

/-- A burst ends that drains no occupied slot. -/
theorem endBurst (h : Tracked H s) (hb : ∀ b ∈ s.port, ∀ n, b.user = .drain n → s.slots.get n = none) : Tracked H s.endBurst := by
  refine h.of_port (by simp) (by simp) (by simp) (by simp) (by simp) (by simp) (by simp) (by simp) ?_
  rintro n hn ⟨b, hmem, huser⟩
  exact absurd (hb b hmem n huser) hn

theorem releaseLock (h : Tracked H s) (w : Fin 16) (k : Nat) : Tracked H (s.releaseLock w k) :=
  h.of_slots rfl rfl rfl rfl rfl fun hH => (h.slots hH).releaseLock w k

theorem releaseAll (h : Tracked H s) : Tracked H s.releaseAll :=
  h.of_slots rfl rfl rfl rfl rfl fun hH => (h.slots hH).releaseAll

theorem createLock (h : Tracked H s) (w : Fin 16) (k : Nat) : Tracked H (s.createLock w k) := by
  have hevict : Tracked H s.evictIfFull := by
    unfold State.evictIfFull
    split
    · split
      · exact (h.releaseLock _ _).raise _
      · exact h
    · exact h
  unfold State.createLock
  split
  · exact h
  · refine hevict.of_slots rfl rfl rfl rfl rfl fun hH => (hevict.slots hH).of_same rfl rfl rfl rfl rfl (fun v j hv => ?_) fun _ _ => id
    simp only [State.locked, List.any_append, Bool.or_eq_true] at hv ⊢
    exact Or.inl hv

/-- The slot of lane n is emptied (R43, R49). -/
theorem dropSlot (h : Tracked H s) (n : Fin 4) : Tracked H (s.dropSlot n) := by
  refine h.of_slots rfl rfl rfl rfl rfl fun hH => ?_
  have hold := h.slots hH
  have hslot : ∀ m, (s.dropSlot n).slots.get m = if m = n then none else s.slots.get m := fun m => Four.get_set _ m n _
  have hdrain : ∀ m, (s.dropSlot n).drains.get m = if m = n then false else s.drains.get m := fun m => Four.get_set _ m n _
  refine ⟨fun m e he => ?_, fun m e he => ?_, fun m hm => ?_, fun hm => (hold.offline hm).imp_right fun hall m => ?_⟩
  · rw [hslot] at he
    split at he
    · cases he
    · exact hold.entry m e he
  · rw [hslot] at he
    rw [hdrain]
    split at he
    · cases he
    case isFalse hne => rw [if_neg hne]; exact hold.kept m e he
  · rw [hdrain] at hm
    rw [hslot]
    split at hm
    · cases hm
    case isFalse hne => rw [if_neg hne]; exact hold.claim m hm
  · rw [hslot]
    split
    · rfl
    · exact hall m

/-- The slot of lane n takes an entry for a locked record (R41). -/
theorem fillSlot (h : Tracked H s) (n : Fin 4) (e : HoldEntry) (hentry : H → EntryOf s n e)
    (hlocked : s.locked e.window e.record = true) (hmode : s.mode ≠ .offline) : Tracked H (s.fillSlot n e) := by
  refine h.of_slots rfl rfl rfl rfl rfl fun hH => ?_
  have hold := h.slots hH
  have hslot : ∀ m, (s.fillSlot n e).slots.get m = if m = n then some e else s.slots.get m := fun m => Four.get_set _ m n _
  refine ⟨fun m x hx => ?_, fun m x hx => ?_, fun m hm => ?_, fun hm => absurd hm hmode⟩
  · rw [hslot] at hx
    split at hx
    case isTrue hmn => cases hx; rw [hmn]; exact hentry hH
    case isFalse => exact hold.entry m x hx
  · rw [hslot] at hx
    split at hx
    case isTrue => cases hx; exact Or.inl hlocked
    case isFalse => exact hold.kept m x hx
  · rw [hslot]
    split
    · exact nofun
    · exact hold.claim m hm

/-- The drain claim of slot n is gone: its record is locked, or its drain burst takes the free port (R48). -/
theorem unclaim {t : State} (h : Tracked H s) (n : Fin 4) (hport : s.port = none) (h1 : t.table = s.table) (h2 : t.mode = s.mode)
    (h3 : t.engine = s.engine) (h4 : t.lanes = s.lanes) (h5 : t.changed = s.changed) (h6 : t.slots = s.slots)
    (h7 : t.drains = s.drains.set n false) (h8 : t.locks = s.locks)
    (hkept : ∀ e ∈ s.slots.get n, s.locked e.window e.record = true ∨ ∃ b ∈ t.port, b.user = .drain n) : Tracked H t := by
  refine h.of_slots h1 h2 h3 h4 h5 fun hH => ?_
  have hold := h.slots hH
  have hlocked : ∀ w k, t.locked w k = s.locked w k := fun w k => by simp only [State.locked, h8]
  have hwin : ∀ w, t.window w = s.window w := fun w => by simp only [State.window, h1]
  refine ⟨?_, fun m e he => ?_, fun m hm => ?_, by rw [h2, h3, h6]; exact hold.offline⟩
  · have := hold.entry
    simpa only [EntryOf, FeedOf, hwin, h6] using this
  · rw [h6] at he
    rw [hlocked, h7, Four.get_set]
    split
    case isTrue hmn =>
      subst hmn
      exact (hkept e he).imp_right Or.inr
    case isFalse =>
      refine (hold.kept m e he).imp_right (Or.imp_right fun hb => ?_)
      rw [hport] at hb
      simp at hb
  · rw [h7, Four.get_set] at hm
    rw [h6]
    split at hm
    · cases hm
    · exact hold.claim m hm

/-! ### The command engine -/

/-- The engine goes on to another state: a LOAD WINDOWS finds every lane at rest, and while the table is inactive no slot stays
occupied but for GO OFFLINE. -/
theorem with_engine (h : Tracked H s) (e : Engine)
    (hload : State.loading { s with engine := e } = true → ∀ n, (s.lane n).atRest = true)
    (hoff : H → s.mode = .offline → e = .executing .goOffline ∨ ∀ n, s.slots.get n = none) : Tracked H { s with engine := e } :=
  ⟨fun n => (h.lanes n).of_windows rfl, h.offline, (loadLaw_iff _).2 hload, h.changed,
    fun hH => ⟨(h.slots hH).entry, (h.slots hH).kept, (h.slots hH).claim, hoff hH⟩⟩

theorem setLongResult (h : Tracked H s) (c : Byte) (o : CommandOutcome) (d : Word) : Tracked H (s.setLongResult c o d) :=
  h.of_same rfl rfl rfl rfl rfl rfl rfl rfl rfl

theorem setResult (h : Tracked H s) (c : Byte) (o : CommandOutcome) (d : Word) : Tracked H (s.setResult c o d) :=
  h.of_same rfl rfl rfl rfl rfl rfl rfl rfl rfl

/-- While the table is inactive every slot is empty, unless GO OFFLINE is waiting for that. -/
theorem slots_none (h : Tracked H s) (he : s.engine ≠ .executing .goOffline) (hH : H) (hm : s.mode = .offline) (n : Fin 4) :
    s.slots.get n = none :=
  ((h.slots hH).offline hm).elim (fun hgo => absurd hgo he) fun hall => hall n

theorem finishLong (h : Tracked H s) (c : Byte) (o : CommandOutcome) (d : Word)
    (hoff : H → s.mode = .offline → ∀ n, s.slots.get n = none) : Tracked H (s.finishLong c o d) :=
  ((h.with_engine .idle nofun fun hH hm => Or.inr (hoff hH hm)).setLongResult c o d).raise _

/-- A long command is taken while the engine is IDLE (R151). -/
theorem beginLong (h : Tracked H s) (long : LongCommand) (hidle : s.engine = .idle)
    (hload : State.loading { s with engine := .executing long } = true → ∀ n, (s.lane n).atRest = true) :
    Tracked H (s.beginLong long) :=
  (h.with_engine (.executing long) hload fun hH hm => Or.inr (h.slots_none (by rw [hidle]; exact nofun) hH hm)).setLongResult _ _ _

/-- A table is installed while every lane is at rest and every slot empty (R13, R25). -/
theorem installTable (h : Tracked H s) (table : Sixteen WindowEntry) (hrest : ∀ n, (s.lane n).atRest = true)
    (hempty : H → ∀ n, s.slots.get n = none) : Tracked H (s.installTable table) := by
  have hlanes : ∀ (t : State) (n : Fin 4), LaneFits H t n (s.lane n) := fun t n =>
    (h.lanes n).of_no_work ((h.lanes n).law.1 (Or.inl (hrest n)))
  have hslots : ∀ t : State, t.slots = s.slots → t.drains = s.drains → H → SlotLaws t := fun t h1 h2 hH =>
    SlotLaws.of_empty (by rw [h1]; exact hempty hH) (by rw [h2]; exact (h.slots hH).no_claim (hempty hH))
  unfold State.installTable
  split
  case isTrue hactive =>
    refine ⟨fun n => hlanes _ n, fun hm => h.offline hm, h.load, fun w => ?_, hslots _ rfl rfl⟩
    simp only [State.changedSet, Sixteen.get_ofFn]
    split
    case isTrue ht => exact ⟨List.pairwise_lt_range, fun k hk => List.mem_range.1 hk, fun hno => absurd ⟨hactive, ht⟩ hno⟩
    case isFalse => exact ⟨List.Pairwise.nil, nofun, fun _ => rfl⟩
  case isFalse =>
    refine ⟨fun n => hlanes _ n, fun hm => h.offline hm, h.load, fun w => ?_, hslots _ rfl rfl⟩
    simp [State.changedSet]

/-- A long command that can finish does (R12, R151, R156, R157, R163). -/
theorem settle (h : Tracked H s) : Tracked H s.settle := by
  have hempty : s.slotsEmpty = true → H → s.mode = .offline → ∀ n, s.slots.get n = none := fun he _ _ => (s.slotsEmpty_iff).1 he
  unfold State.settle
  split
  case h_1 he =>
    split
    · exact h.finishLong _ _ _ (h.slots_none (by rw [he]; exact nofun))
    · exact h
  case h_2 =>
    split
    case isTrue hdone => exact h.finishLong _ _ _ (hempty (Bool.and_eq_true_iff.1 hdone).2)
    case isFalse => exact h
  case h_3 table he =>
    split
    case isTrue hdone =>
      have hslots := (s.slotsEmpty_iff).1 hdone
      have hrest := (loadLaw_iff s).1 h.load (by rw [State.loading, he])
      refine (h.installTable table hrest fun _ => hslots).finishLong _ _ _ fun _ _ => ?_
      unfold State.installTable
      split <;> exact hslots
    case isFalse => exact h
  case h_4 he =>
    split
    · exact h.finishLong _ _ _ (h.slots_none (by rw [he]; exact nofun))
    · exact h
  all_goals exact h

theorem installSettings (h : Tracked H s) (staging : List Quad) : Tracked H (s.installSettings staging) := by
  refine ⟨fun n => ?_, fun hm n => ?_, ?_, h.changed, fun hH => (h.slots hH).of_same rfl rfl rfl rfl rfl (fun _ _ => id) fun _ _ => id⟩
  · rw [State.installSettings_lane]
    exact ((h.lanes n).of_same (k := { s.lane n with settings := newSettings staging n }) rfl rfl rfl rfl rfl (Or.inl rfl) rfl).of_windows rfl
  · rw [State.installSettings_lane]
    exact h.offline hm n
  · have := (loadLaw_iff s).1 h.load
    refine (loadLaw_iff _).2 fun hl n => ?_
    rw [State.installSettings_lane]
    exact this hl n

/-! ### The ends of bursts -/

theorem endBurst_of_user (h : Tracked H s) {b : Burst} (hb : s.port = some b) (hu : ∀ n, b.user ≠ .drain n) : Tracked H s.endBurst :=
  h.endBurst fun x hx n hn => by rw [hb] at hx; cases hx; exact absurd hn (hu n)


end Tracked

end Sys2Proof.Machine
end

section
/-! PROOF. Every case of a step keeps the laws of lanes, records, changed sets and hold slots. -/

namespace Sys2Proof.Machine

/-! ### Every lane at once -/

/-- The same change for every lane. -/
def State.mapLanes (s : State) (f : Lane → Lane) : State := { s with lanes := Four.ofFn fun n => f (s.lane n) }

theorem State.lane_mapLanes (s : State) (f : Lane → Lane) (n : Fin 4) : (s.mapLanes f).lane n = f (s.lane n) := by
  simp [State.mapLanes, State.lane]

theorem State.foldl_setLane (s : State) (f : Lane → Lane) :
    laneList.foldl (fun t n => t.setLane n (f (t.lane n))) s = s.mapLanes f := by
  obtain ⟨l0, l1, l2, l3⟩ := s.lanes
  rfl

/-- An active lane is cut and stops without an event; another is left as it is (R104, R122, R124). -/
theorem State.cutLane_false_eq (s : State) (n : Fin 4) : s.cutLane n false = s.setLane n (s.lane n).cutToStop := by
  unfold State.cutLane Lane.cutToStop
  split
  · simp only [State.cutWork, State.enterStopped, State.lane_setLane_same, State.setLane_setLane, Bool.false_eq_true, if_false]
    rfl
  · rw [State.setLane_lane]

theorem State.foldl_cutLane (s : State) : laneList.foldl (fun t n => t.cutLane n false) s = s.mapLanes Lane.cutToStop := by
  simp only [State.cutLane_false_eq]
  exact s.foldl_setLane Lane.cutToStop

/-- GO OFFLINE as one event (R157). -/
theorem State.takeGoOffline_eq (s : State) :
    s.takeGoOffline = ((({ s with mode := .offline }.beginLong .goOffline).mapLanes Lane.cutToStop).releaseAll).emptySets := by
  unfold State.takeGoOffline
  exact congrArg (fun t : State => t.releaseAll.emptySets) (State.foldl_cutLane _)

theorem Lane.cutToStop_atRest (l : Lane) : l.cutToStop.atRest = true := by
  unfold Lane.cutToStop
  split
  · rfl
  case isFalse h => simpa [Lane.active] using h

theorem Lane.cut_calls (link : Link) (settings : LaneSettings) :
    (link.cut settings).call = none ∧ (link.cut settings).request = none := Tracked.cutLink link settings

/-- Time leaves a call and a request as they are. -/
theorem Link.endBit_calls (l : Link) (b : Bool) : (l.endBit b).call = l.call ∧ (l.endBit b).request = l.request := by
  unfold Link.endBit
  repeat' split
  all_goals exact ⟨rfl, rfl⟩

theorem Link.advance_calls (l : Link) (b : Bool) : (l.advance b).call = l.call ∧ (l.advance b).request = l.request := by
  unfold Link.advance
  split
  · exact ⟨rfl, rfl⟩
  · split
    · exact Link.endBit_calls _ b
    · exact ⟨rfl, rfl⟩

theorem LaneFits.advance {H : Prop} {s : State} {n : Fin 4} {l : Lane} (h : LaneFits H s n l) (b : Bool) :
    LaneFits H s n (l.advance b) :=
  h.of_same rfl rfl rfl rfl rfl (Or.inl (l.link.advance_calls b).1) (l.link.advance_calls b).2

/-- A drain burst does not end by itself. -/
theorem Burst.advance_drain (b : Burst) (n : Fin 4) (h : b.user = .drain n) : ∃ c ∈ b.advance, c.user = .drain n := by
  unfold Burst.advance
  rw [h]
  exact ⟨_, rfl, rfl⟩

/-- The laws of the slots in another mode, or under another command. -/
theorem SlotLaws.of_mode {s t : State} (h : SlotLaws s) (h1 : t.table = s.table) (h2 : t.slots = s.slots) (h3 : t.drains = s.drains)
    (h4 : t.locks = s.locks) (h5 : t.port = s.port)
    (hoff : t.mode = .offline → t.engine = .executing .goOffline ∨ ∀ n, t.slots.get n = none) : SlotLaws t := by
  obtain ⟨hentry, hkept, hclaim, _⟩ := h
  refine ⟨?_, ?_, by rw [h2, h3]; exact hclaim, hoff⟩
  · simpa only [EntryOf, FeedOf, State.window, h1, h2] using hentry
  · simpa only [State.locked, h2, h3, h4, h5] using hkept

namespace Tracked

variable {H : Prop} {s : State}

/-- The values that every reset leaves. -/
theorem of_reset {t : State} (hlane : ∀ n, (t.lane n).atRest = true ∧ (t.lane n).work = .none ∧ (t.lane n).link.call = none
      ∧ (t.lane n).link.request = none) (hsets : ∀ w, t.changedSet w = []) (hslots : ∀ n, t.slots.get n = none)
    (hdrains : ∀ n, t.drains.get n = false) : Tracked H t := by
  refine ⟨fun n => ?_, fun _ n => (hlane n).1, (loadLaw_iff t).2 fun _ n => (hlane n).1, fun w => ?_, fun _ =>
    SlotLaws.of_empty hslots hdrains⟩
  · obtain ⟨_, hwork, hcall, hreq⟩ := hlane n
    exact LaneFits.off_record hcall hreq (by rw [hwork]; rfl) fun _ => hwork
  · rw [hsets w]
    exact ⟨List.Pairwise.nil, nofun, fun _ => rfl⟩

theorem of_blocksReset (phase : Phase) (cause : ResetCause) : Tracked H (s.blocksReset phase cause) := by
  refine of_reset (fun n => ?_) (fun w => ?_) (fun n => ?_) (fun n => ?_) <;>
    simp [State.blocksReset, State.powerOn, State.lane, State.changedSet, Lane.reset, Lane.atRest, Link.reset]

/-! ### The ends of bursts -/

theorem captureBurstEnd (h : Tracked H s) : Tracked H s.captureBurstEnd := by
  obtain ⟨heq, _⟩ | ⟨n, _, _, _, hport, hcases⟩ := s.captureBurstEnd_cases
  · rw [heq]; exact h
  · have hend : Tracked H s.endBurst := h.endBurst_of_user hport (fun _ => nofun)
    obtain heq | ⟨sel, hwork, _, heq⟩ := hcases
    · rw [heq]; exact hend
    · have hw : (s.endBurst.lane n).work = .capturing := by rw [State.lane_endBurst]; exact hwork
      rw [heq]
      exact hend.requestCall _ ((hend.lanes n).free (by rw [hw]; exact nofun) (by rw [hw]; exact nofun))
        ((hend.lanes n).recordFits (by rw [hw]; rfl)) nofun

theorem commitBurstEnd (h : Tracked H s) : Tracked H s.commitBurstEnd := by
  obtain ⟨heq, _⟩ | ⟨n, _, _, _, hport, hcases⟩ := s.commitBurstEnd_cases
  · rw [heq]; exact h
  · have hend : Tracked H s.endBurst := h.endBurst_of_user hport (fun _ => nofun)
    obtain heq | ⟨e, hwork, heq⟩ := hcases
    · rw [heq]; exact hend
    · have hw : (s.endBurst.lane n).work = .committing e := by rw [State.lane_endBurst]; exact hwork
      rw [heq]
      exact hend.commitResolved e ((hend.lanes n).free (by rw [hw]; exact nofun) (by rw [hw]; exact nofun))
        ((hend.lanes n).recordFits (by rw [hw]; rfl))

/-- A drain burst leaves its slot empty (R49). -/
theorem drainBurstEnd (h : Tracked H s) : Tracked H s.drainBurstEnd := by
  obtain ⟨heq, _⟩ | ⟨n, len, ws, done, hport, heq⟩ := s.drainBurstEnd_cases
  · rw [heq]; exact h
  · have hend : Tracked H (s.dropSlot n).endBurst := by
      refine (h.dropSlot n).endBurst fun b hb m hm => ?_
      have hb' : s.port = some b := hb
      rw [hport] at hb'
      cases hb'
      cases hm
      exact Four.get_set_same _ _ _
    have hswap : (s.dropSlot n).endBurst = s.endBurst.dropSlot n := by
      simp only [State.endBurst, State.dropSlot, hport]
    rw [heq, ← hswap]
    exact hend.retryHeld

theorem tableReadEnd (h : Tracked H s) : Tracked H s.tableReadEnd := by
  obtain ⟨heq, _⟩ | ⟨_, _, _, hport, hcases⟩ := s.tableReadEnd_cases
  · rw [heq]; exact h
  · have hend : Tracked H s.endBurst := h.endBurst_of_user hport (fun _ => nofun)
    obtain heq | ⟨staging, he, _, heq⟩ | ⟨image, he, _, heq⟩ := hcases
    · rw [heq]; exact hend
    · have he' : s.endBurst.engine ≠ .executing .goOffline := by rw [State.endBurst_engine, he]; exact nofun
      rw [heq]
      unfold State.checkSettings
      split
      · exact hend.finishLong _ _ _ (hend.slots_none he')
      · split
        · exact hend.finishLong _ _ _ (hend.slots_none he')
        · exact (hend.installSettings staging).finishLong _ _ _ (hend.slots_none he')
    · have he' : s.endBurst.engine ≠ .executing .goOffline := by rw [State.endBurst_engine, he]; exact nofun
      have hrest := (loadLaw_iff _).1 hend.load (by rw [State.loading, State.endBurst_engine, he])
      rw [heq]
      unfold State.checkWindows
      split
      · exact hend.finishLong _ _ _ (hend.slots_none he')
      · split
        case isTrue hactive =>
          refine hend.releaseAll.with_engine _ (fun _ => hrest) fun _ hm => ?_
          have : s.endBurst.mode ≠ .offline := by simpa [State.tableActive] using hactive
          exact absurd hm this
        case isFalse hactive =>
          have hm : s.endBurst.mode = .offline := by simpa [State.tableActive] using hactive
          have hempty : H → ∀ n, s.endBurst.slots.get n = none := fun hH => hend.slots_none he' hH hm
          refine (hend.installTable _ hrest hempty).finishLong _ _ _ fun hH _ => ?_
          unfold State.installTable
          split <;> exact hempty hH

/-! ### The grants -/

theorem countGrant (h : Tracked H s) (src : Source) : Tracked H (s.countGrant src) := h.of_same rfl rfl rfl rfl rfl rfl rfl rfl rfl

theorem stepFetchGrant (h : Tracked H s) : Tracked H s.stepFetchGrant := by
  unfold State.stepFetchGrant
  split
  case h_1 n hg =>
    have hwork := s.work_of_fetch_grantable n hg
    have hfree := (h.lanes n).free (by rw [hwork]; exact nofun) (by rw [hwork]; exact nofun)
    have hport : ((s.countGrant (.fetch n)).fetchStep n).port = none :=
      (LaneFrame.fetchStep (s.countGrant (.fetch n)) n).port.trans (s.port_of_grantable _ hg)
    exact Tracked.holdPort (Tracked.fetchStep (h.countGrant (.fetch n)) (n := n) hfree) hport _ _ _
  case h_2 => exact h

/-- An index leaves its changed set (R18). -/
theorem removeChanged (h : Tracked H s) (w : Fin 16) (k : Nat) : Tracked H (s.removeChanged w k) := by
  have hlane : ∀ n, (s.removeChanged w k).lane n = s.lane n := fun n => by simp only [State.lane, State.removeChanged_lanes]
  refine ⟨fun n => ?_, fun hm n => ?_, ?_, fun u => ?_, fun hH => ?_⟩
  · rw [hlane]; exact (h.lanes n).of_windows (by simp)
  · rw [hlane]; exact h.offline (by simpa using hm) n
  · have := h.load
    simpa only [LoadLaw, State.removeChanged_engine, hlane] using this
  · obtain ⟨hsorted, hbound, hempty⟩ := h.changed u
    have hwin : (s.removeChanged w k).window u = s.window u := by simp only [State.window, State.removeChanged_table]
    have hact : (s.removeChanged w k).tableActive = s.tableActive := by simp only [State.tableActive, State.removeChanged_mode]
    rw [State.changedSet_removeChanged, hwin, hact]
    split
    case isTrue hu =>
      obtain ⟨rfl, _⟩ := hu
      refine ⟨pairwise_removeIndex k _ hsorted, fun j hj => hbound j ((mem_removeIndex k j _).1 hj).1, fun hno => ?_⟩
      rw [hempty hno]; rfl
    case isFalse => exact ⟨hsorted, hbound, hempty⟩
  · exact (h.slots hH).of_same (by simp) (by simp) (by simp) (by simp) (by simp)
      (fun v j hj => by simpa only [State.locked, State.removeChanged_locks] using hj) fun n _ hb => by simpa using hb

theorem captureGrant (h : Tracked H s) : Tracked H s.captureGrant := by
  unfold State.captureGrant
  split
  case h_1 n hg =>
    have hwork := s.work_of_capture_grantable n hg
    have hfree := (h.lanes n).free (by rw [hwork]; exact nofun) (by rw [hwork]; exact nofun)
    have hrec := (h.lanes n).recordFits (by rw [hwork]; rfl)
    dsimp only
    split
    case h_1 sel hsel =>
      have hremove : Tracked H ((s.countGrant (.capture n)).removeChanged sel.window ((s.countGrant (.capture n)).lane n).position) :=
        (h.countGrant (.capture n)).removeChanged _ _
      have htable := State.removeChanged_table (s.countGrant (.capture n)) sel.window ((s.countGrant (.capture n)).lane n).position
      have hmode := State.removeChanged_mode (s.countGrant (.capture n)) sel.window ((s.countGrant (.capture n)).lane n).position
      have hengine := State.removeChanged_engine (s.countGrant (.capture n)) sel.window ((s.countGrant (.capture n)).lane n).position
      have hport := State.removeChanged_port (s.countGrant (.capture n)) sel.window ((s.countGrant (.capture n)).lane n).position
      have hfits : ∀ ws, LaneFits H ((s.countGrant (.capture n)).removeChanged sel.window ((s.countGrant (.capture n)).lane n).position)
          n { s.lane n with work := .capturing, outbound := ws } := fun ws =>
        LaneFits.on_record (hfree.of_same rfl rfl rfl)
          ((hrec.of_same (k := { s.lane n with work := .capturing, outbound := ws }) rfl rfl rfl).of_windows htable) fun _ => nofun
      exact Tracked.holdPort (hremove.setLane n _ (hfits _) fun _ => State.mayRun_of_same (h.mayRun n hfree.active) hmode hengine)
        (hport.trans (s.port_of_grantable _ hg)) _ _ _
    case h_2 => exact h.countGrant _
  case h_2 => exact h

/-- The commit decision of R41. -/
theorem decideCommit (h : Tracked H s) (n : Fin 4) (e : HoldEntry) (hwork : (s.lane n).work = .commitClaim e) (hport : s.port = none) :
    Tracked H (s.decideCommit n e) := by
  have hfree := (h.lanes n).free (by rw [hwork]; exact nofun) (by rw [hwork]; exact nofun)
  have hrec := (h.lanes n).recordFits (by rw [hwork]; rfl)
  have hentry : H → EntryOf s n e := fun hH => ((h.lanes n).hold hH).1 e (by rw [hwork]; rfl)
  have hrun := h.mayRun n hfree.active
  have hwrite : ∀ (t : State) (x : HoldEntry), Tracked H t → t.lane n = s.lane n → t.table = s.table → t.port = none →
      (H → EntryOf s n x) → Tracked H ((t.setLane n { s.lane n with work := .committing x }).holdPort (.commit n)
        (x.data.length + 1) (t.entryWrites x)) := by
    intro t x ht hlane htable hp hx
    have hwin : ∀ w, t.window w = s.window w := fun w => by simp only [State.window, htable]
    have hfits : LaneFits H t n { s.lane n with work := .committing x } :=
      LaneFits.on_record (hfree.of_same rfl rfl rfl)
        ((hrec.of_same (k := { s.lane n with work := .committing x }) rfl rfl rfl).of_windows htable) fun hH y hy => by
        cases hy
        simpa only [EntryOf, FeedOf, hwin] using hx hH
    exact Tracked.holdPort (ht.setLane_active n _ hfits (by rw [hlane]; exact hfree.active)) hp _ _ _
  unfold State.decideCommit
  dsimp only
  by_cases hl : s.locked e.window e.record = true
  · rw [if_pos hl]
    have hfill : ∀ x : HoldEntry, (H → EntryOf s n x) → s.locked x.window x.record = true →
        Tracked H ((s.fillSlot n x).commitResolved n e) := fun x hx hlx =>
      Tracked.commitResolved (h.fillSlot n x hx hlx hrun.1) (n := n) e hfree (hrec.of_windows rfl)
    split
    case h_1 => exact hfill e hentry hl
    case h_2 =>
      split
      · exact hfill e.asReplacement hentry hl
      · refine h.setLane_active n _ (LaneFits.on_record ⟨rfl, nofun, hfree.call, hfree.request⟩
          (hrec.of_same rfl rfl rfl) fun hH x hx => ?_) hfree.active
        cases hx
        exact hentry hH
  · rw [if_neg hl]
    by_cases hs : slotHolds (s.slots.get n) e.window e.record = true
    · rw [if_pos hs, if_pos hs]
      exact hwrite (s.dropSlot n) e.asReplacement (h.dropSlot n) rfl rfl hport hentry
    · rw [if_neg hs, if_neg hs]
      exact hwrite s e h rfl rfl hport hentry

theorem commitGrant (h : Tracked H s) : Tracked H s.commitGrant := by
  unfold State.commitGrant
  split
  case h_1 n hg =>
    split
    case h_1 e hwork => exact Tracked.decideCommit (h.countGrant (.commit n)) n e hwork (s.port_of_grantable _ hg)
    case h_2 => exact h
  case h_2 => exact h

theorem drainGrant (h : Tracked H s) : Tracked H s.drainGrant := by
  unfold State.drainGrant
  split
  case h_1 n hg =>
    have hport := s.port_of_grantable _ hg
    dsimp only
    split
    case h_1 e he =>
      have he' : s.slots.get n = some e := he
      split
      case isTrue hl =>
        refine h.unclaim n hport rfl rfl rfl rfl rfl rfl rfl rfl fun x hx => ?_
        rw [he'] at hx
        cases hx
        exact Or.inl hl
      case isFalse => exact h.unclaim n hport rfl rfl rfl rfl rfl rfl rfl rfl fun x hx => Or.inr ⟨_, rfl, rfl⟩
    case h_2 he =>
      have he' : s.slots.get n = none := he
      exact h.unclaim n hport rfl rfl rfl rfl rfl rfl rfl rfl fun x hx => (nomatch he'.symm.trans hx)
  case h_2 => exact h

theorem tableReadGrant (h : Tracked H s) : Tracked H s.tableReadGrant := by
  unfold State.tableReadGrant
  split
  case h_1 hg =>
    have hport := s.port_of_grantable _ hg
    have hnone : ∀ staging, s.engine = .executing (.loadSettings staging) ∨ s.engine = .executing (.loadWindows staging) →
        H → s.mode = .offline → ∀ n, s.slots.get n = none := fun staging he =>
      h.slots_none (by obtain he | he := he <;> rw [he] <;> exact nofun)
    dsimp only
    split
    case h_1 staging he =>
      have he' : s.engine = .executing (.loadSettings staging) := he
      exact Tracked.holdPort ((h.countGrant .table).with_engine _ (fun hl => absurd hl (by simp [State.loading])) fun hH hm =>
        Or.inr (hnone staging (Or.inl he') hH hm)) hport _ _ _
    case h_2 staging he =>
      have he' : s.engine = .executing (.loadWindows staging) := he
      have hrest := (loadLaw_iff s).1 h.load (by rw [State.loading, he'])
      exact Tracked.holdPort ((h.countGrant .table).with_engine _ (fun _ => hrest) fun hH hm =>
        Or.inr (hnone staging (Or.inr he') hH hm)) hport _ _ _
    case h_3 => exact h
  case h_2 => exact h

theorem statusWriteGrant (h : Tracked H s) : Tracked H s.statusWriteGrant := by
  unfold State.statusWriteGrant
  split
  case h_1 hg =>
    split
    case h_1 i _ =>
      have hwrite : Tracked H ((s.countGrant .status).writeStatus i) := h.of_same rfl rfl rfl rfl rfl rfl rfl rfl rfl
      exact hwrite.holdPort (s.port_of_grantable _ hg) _ _ _
    case h_2 => exact h
  case h_2 => exact h

/-! ### The commands -/

/-- The mode changes to one in which the table is active. -/
theorem set_mode (h : Tracked H s) (m : Mode) (hm : m ≠ .offline) : Tracked H { s with mode := m } := by
  refine ⟨fun n => (h.lanes n).of_windows rfl, fun he => absurd he hm, h.load, fun w => ?_, fun hH =>
    ⟨(h.slots hH).entry, (h.slots hH).kept, (h.slots hH).claim, fun he => absurd he hm⟩⟩
  obtain ⟨hsorted, hbound, hempty⟩ := h.changed w
  refine ⟨hsorted, hbound, fun hno => hempty fun hyes => hno ⟨?_, hyes.2⟩⟩
  simpa [State.tableActive] using hm

/-- GO OFFLINE (R157): every lane is cut to rest, the sets are empty, and each slot still occupied claims its drain. -/
theorem takeGoOffline (h : Tracked H s) : Tracked H s.takeGoOffline := by
  have hlane : ∀ n, s.takeGoOffline.lane n = (s.lane n).cutToStop := fun n => by
    rw [State.takeGoOffline_eq]
    exact State.lane_mapLanes _ _ n
  refine ⟨fun n => ?_, fun _ n => ?_, (loadLaw_iff _).2 fun hl n => ?_, fun w => ?_, fun hH => ?_⟩
  · rw [hlane n]
    unfold Lane.cutToStop
    split
    · obtain ⟨hcall, hreq⟩ := Lane.cut_calls (s.lane n).link (s.lane n).settings
      exact LaneFits.off_record hcall hreq rfl fun _ => rfl
    case isFalse hact =>
      exact (h.lanes n).of_no_work ((h.lanes n).law.1 (Or.inl (by simpa [Lane.active] using hact)))
  · rw [hlane n]; exact Lane.cutToStop_atRest _
  · rw [hlane n]; exact Lane.cutToStop_atRest _
  · rw [State.takeGoOffline_eq]
    simp [State.changedSet, State.emptySets]
  · rw [State.takeGoOffline_eq]
    exact (h.slots hH).releaseAll.of_mode rfl rfl rfl rfl rfl fun _ => Or.inl rfl

theorem foldl_lanes (f : State → Fin 4 → State) (hf : ∀ t n, Tracked H t → Tracked H (f t n)) (ns : List (Fin 4))
    (h : Tracked H s) : Tracked H (ns.foldl f s) := by
  induction ns generalizing s with
  | nil => exact h
  | cons n rest ih => exact ih (hf s n h)

theorem takeGoQuiet (h : Tracked H s) (he : s.engine = .idle) : Tracked H s.takeGoQuiet := by
  unfold State.takeGoQuiet
  split
  · exact h.setResult _ _ _
  · exact foldl_lanes _ (fun t n ht => ht.quietLane n) laneList ((h.set_mode .quiet nofun).beginLong .goQuiet he nofun)

theorem takeGoOnline (h : Tracked H s) : Tracked H s.takeGoOnline := by
  have hmode := h.set_mode .online nofun
  unfold State.takeGoOnline
  dsimp only
  split
  · exact (hmode.fillSets _ rfl).setResult _ _ _
  · exact hmode.setResult _ _ _

theorem takeLoad (h : Tracked H s) (long : LongCommand) (he : s.engine = .idle) : Tracked H (s.takeLoad long) := by
  obtain ⟨n, _, heq⟩ | ⟨hrest, heq⟩ := s.takeLoad_cases long
  · rw [heq]; exact h.setResult _ _ _
  · rw [heq]; exact h.beginLong long he fun _ => hrest

theorem takeStart (h : Tracked H s) (c : Command) (arg : Byte) (m : StartMode) (hrun : s.mayRun) : Tracked H (s.takeStart c arg m) := by
  unfold State.takeStart
  dsimp only
  split
  · exact h.setResult _ _ _
  · split
    · exact h.setResult _ _ _
    · exact (h.startLane m hrun).setResult _ _ _

theorem takeStop (h : Tracked H s) (arg : Byte) : Tracked H (s.takeStop arg) := by
  have hmark := h.setLane_same (laneOf arg) { s.lane (laneOf arg) with stopAtCycleEnd := true } rfl rfl rfl rfl rfl (Or.inl rfl) rfl
  unfold State.takeStop
  dsimp only
  split
  case h_2 hstate =>
    obtain ⟨hcall, hreq⟩ := (h.lanes (laneOf arg)).no_call (by rw [(h.lanes (laneOf arg)).law.1 (Or.inr hstate)]; exact nofun)
    exact (h.enterStopped true hcall hreq).setResult _ _ _
  case h_3 => exact hmark.setResult _ _ _
  case h_4 => exact hmark.setResult _ _ _
  all_goals exact h.setResult _ _ _

theorem takeClear (h : Tracked H s) (arg : Byte) : Tracked H (s.takeClear arg) := by
  have hset := h.setLane_same (laneOf arg) { s.lane (laneOf arg) with lastError := LastError.clear } rfl rfl rfl rfl rfl (Or.inl rfl) rfl
  unfold State.takeClear
  dsimp only
  split
  case isTrue hstate =>
    obtain ⟨hcall, hreq⟩ := (h.lanes (laneOf arg)).no_call
      (by rw [(h.lanes (laneOf arg)).law.1 (Or.inl (by simp [Lane.atRest, hstate]))]; exact nofun)
    refine (hset.enterStopped false ?_ ?_).setResult _ _ _ <;> rw [State.lane_setLane_same]
    · exact hcall
    · exact hreq
  case isFalse => exact h.setResult _ _ _

theorem takeSoftReset : Tracked H s.takeSoftReset := by
  refine of_reset (fun n => ?_) (fun w => ?_) (fun n => ?_) (fun n => ?_)
  · obtain ⟨hcall, hreq⟩ := Lane.cut_calls (s.lane n).link (s.lane n).settings
    have hlane : s.takeSoftReset.lane n = (s.lane n).softReset := Four.get_ofFn _ n
    rw [hlane]
    exact ⟨rfl, rfl, hcall, hreq⟩
  · exact Sixteen.get_replicate _ w
  · exact Four.get_replicate _ n
  · exact Four.get_replicate _ n

theorem carryOutCommand (h : Tracked H s) (c : Command) (arg : Byte) (he : s.engine = .idle) (hm : c.available s.mode = true) :
    Tracked H (s.carryOutCommand c arg) := by
  have hrun : c.available s.mode = (s.mode == .online) → s.mayRun := fun hav => by
    rw [hav, beq_iff_eq] at hm
    exact ⟨by rw [hm]; exact nofun, by rw [State.loading, he]⟩
  cases c with
  | goOffline => exact h.takeGoOffline
  | goQuiet => exact h.takeGoQuiet he
  | goOnline => exact h.takeGoOnline
  | loadSettings => exact h.takeLoad _ he
  | loadWindows => exact h.takeLoad _ he
  | startOnce => exact h.takeStart _ arg _ (hrun rfl)
  | startContinuous => exact h.takeStart _ arg _ (hrun rfl)
  | stop => exact h.takeStop arg
  | abort => exact (h.cutLane true).setResult _ _ _
  | clear => exact h.takeClear arg
  | markChanged =>
    show Tracked H (s.takeMarkChanged arg)
    unfold State.takeMarkChanged
    dsimp only
    split
    · exact (h.fillSets _ hm).setResult _ _ _
    · exact h.setResult _ _ _
  | releaseLocks => exact h.releaseAll.setResult _ _ _
  | freezeFirst =>
    show Tracked H s.takeFreezeFirst
    unfold State.takeFreezeFirst
    split <;> exact h.of_same rfl rfl rfl rfl rfl rfl rfl rfl rfl
  | freezeSecond =>
    show Tracked H s.takeFreezeSecond
    unfold State.takeFreezeSecond
    split <;> exact h.of_same rfl rfl rfl rfl rfl rfl rfl rfl rfl
  | softReset => exact takeSoftReset

end Tracked

/-! ### Every step -/

theorem tracked_accessKept (H : Prop) : AccessKept (Tracked H) where
  passed _ _ h := h.of_same rfl rfl rfl rfl rfl rfl rfl rfl rfl
  memory _ _ _ _ h := h.of_same rfl rfl rfl rfl rfl rfl rfl rfl rfl
  answer s t ht h := by
    unfold AnswerFrame at ht
    rw [ht]
    exact h.of_same rfl rfl rfl rfl rfl rfl rfl rfl rfl
  addChanged s a p hp h := by
    obtain ⟨hactive, _, hk⟩ := s.place_in_window a p hp
    exact h.addChanged _ _ hactive hk
  createLock _ _ p _ _ h := h.createLock p.window p.record
  releaseLock _ w k h := h.releaseLock w k
  carryOut _ c arg he hm _ h := h.carryOutCommand c arg he hm

/-- Every case of a step keeps the laws of lanes, records and changed sets, and with H those of the hold slots. -/
theorem tracked_kept (H : Prop) : Kept (Tracked H) where
  queue _ _ h := h.of_same rfl rfl rfl rfl rfl rfl rfl rfl rfl
  wait _ _ h := h.of_same rfl rfl rfl rfl rfl rfl rfl rfl rfl
  atGrant s h := h.of_port rfl rfl rfl rfl rfl rfl rfl rfl fun n _ hb => by
    obtain ⟨b, hb, hu⟩ := hb
    exact ⟨b, by simp [State.atGrant, Option.mem_def.1 hb, hu, BurstUser.endsItself], hu⟩
  settle _ h := h.settle
  grantAccess s a hc h := (tracked_accessKept H).grantAccess s a hc h
  selfEnd s b hb he h := h.endBurst_of_user hb fun n hn => by rw [hn] at he; cases he
  captureBurstEnd _ h := h.captureBurstEnd
  commitBurstEnd _ h := h.commitBurstEnd
  drainBurstEnd _ h := h.drainBurstEnd
  tableReadEnd _ h := h.tableReadEnd
  stepFetchGrant _ h := h.stepFetchGrant
  captureGrant _ h := h.captureGrant
  commitGrant _ h := h.commitGrant
  drainGrant _ h := h.drainGrant
  tableReadGrant _ h := h.tableReadGrant
  statusWriteGrant _ h := h.statusWriteGrant
  laneRow _ _ _ hrow h := h.laneRow hrow
  expireLock s w k h := by
    unfold State.expireLock
    split
    · exact (h.releaseLock w k).raise _
    · exact h
  hardResetAssert s late h := by
    unfold State.hardResetAssert
    split
    · exact h
    · have hreset : Tracked H ((s.cutBurst late).blocksReset .hardReset .hard) := Tracked.of_blocksReset _ _
      unfold State.grantWaiting
      split
      case h_1 a _ => exact (tracked_accessKept H).grantAccess _ a (fun _ => Nat.zero_lt_succ 3) hreset
      case h_2 => exact hreset
  hardResetRelease s straps h := by
    have hreset : Tracked H (s.blocksReset .running .hard) := Tracked.of_blocksReset _ _
    unfold State.hardResetRelease
    split
    · exact hreset.of_same rfl rfl rfl rfl rfl rfl rfl rfl rfl
    · exact h
  powerOnReset s straps e h := by
    cases e with
    | suppliesGood sram =>
      refine Tracked.of_reset (fun n => ?_) (fun w => ?_) (fun n => ?_) (fun n => ?_) <;>
        simp [State.powerOnReset, State.suppliesGood, State.powerOn, State.lane, State.changedSet, Lane.reset, Lane.atRest, Link.reset]
    | ends =>
      have hreset : Tracked H (s.blocksReset .running .powerOn) := Tracked.of_blocksReset _ _
      show Tracked H (s.powerOnEnds straps)
      unfold State.powerOnEnds
      split
      · exact hreset.of_same rfl rfl rfl rfl rfl rfl rfl rfl rfl
      · exact h
  advance s h := by
    have hlane : ∀ n, s.advance.lane n = (s.lane n).advance (nextLevel (s.ldi.get n)) := fun n => Four.get_ofFn _ n
    refine ⟨fun n => ?_, fun hm n => ?_, (loadLaw_iff _).2 fun hl n => ?_, h.changed, fun hH => ?_⟩
    · rw [hlane]
      exact ((h.lanes n).advance _).of_windows rfl
    · rw [hlane]
      exact h.offline hm n
    · rw [hlane]
      exact (loadLaw_iff s).1 h.load hl n
    · refine (h.slots hH).of_same rfl rfl rfl rfl rfl (fun w k hk => ?_) fun n _ hb => ?_
      · show ((s.locks.map fun l => { l with remaining := l.remaining - 1 }).any fun l => l.names w k) = true
        rw [List.any_map]
        exact hk
      · obtain ⟨b, hb, hu⟩ := hb
        obtain ⟨c, hc, hcu⟩ := b.advance_drain n hu
        refine ⟨c, ?_, hcu⟩
        show c ∈ s.port.bind Burst.advance
        rw [Option.mem_def.1 hb]
        exact hc

/-- Settles O59: the changed sets and what keeps them are Tracked without the hold slots, which every case of a step keeps. -/
theorem stepKeepsTrackerLaws : Obligations.StepKeepsTrackerLaws := fun s t hs ht =>
  (tracked_false_iff t).1 ((tracked_kept False).step s t ((tracked_false_iff s).2 hs) ht)

/-- Settles O57: with the hold slots among them the laws of Tracked are kept as well. -/
theorem stepKeepsHoldLaws : Obligations.StepKeepsHoldLaws := fun s t hs ht =>
  ((tracked_true_iff t).1 ((tracked_kept True).step s t ((tracked_true_iff s).2 hs) ht)).2

end Sys2Proof.Machine
end

section
/-! PROOF. Command words (R147 to R153): turned away, refused, and the short commands that are carried out on lanes, sets and
freeze. -/

namespace Sys2Proof.Machine

/-! ### The rows of command words -/

/-- Each command row is the word write of its code and argument (section 10.5). -/
theorem exec_commandWord (c : Instr) (code arg : Byte) (s : State) (h : commandWord c = some (code, arg)) :
    exec c s = .next (s.giveCommand code arg) := by
  cases c <;> cases h <;> rfl

/-- FREEZE SECOND alone has the code 31h. -/
theorem commandOf_freezeSecond_iff (code : Byte) : commandOf code = some .freezeSecond ↔ code = 0x31 := by
  constructor
  · intro h
    have := List.find?_some (p := fun c : Command => c.code == code) h
    exact (beq_iff_eq.1 this).symm
  · rintro rfl
    rfl

/-- A code that no row of the table has is given to no command. -/
theorem commandOf_unknown (code : Byte) (h : knownCodes.contains code = false) : commandOf code = none := by
  have hall : ∀ c ∈ commandList, knownCodes.contains c.code = true := by decide
  unfold commandOf
  rw [List.find?_eq_none]
  intro c hc heq
  rw [beq_iff_eq] at heq
  rw [← heq, hall c hc] at h
  cases h

/-- A command carried out that leaves the engine IDLE has nothing to finish. -/
theorem State.carried_out_idle (s : State) (code arg : Byte) (c : Command) (hr : s.ready = true) (ha : AreaLaws s)
    (he : s.engine = .idle) (hc : commandOf code = some c) (h2 : c ≠ .freezeSecond) (hm : c.available s.mode = true)
    (hf : (c.refusedFrozen && s.frozen) = false) (hb : arg.toNat < c.argBound)
    (hidle : ((s.taken code arg).carryOutCommand c arg).engine = .idle) :
    s.giveCommand code arg = (s.taken code arg).carryOutCommand c arg :=
  (s.carried_out code arg c hr ha he hc h2 hm hf hb).trans (State.settle_idle _ hidle)

/-! ### UNKNOWN and BUSY -/

/-- A command word that meets an EXECUTING engine is turned away with BUSY; FREEZE SECOND alone leaves *armed* (R147, R149). -/
theorem State.busy (s : State) (code arg : Byte) (long : LongCommand) (hr : s.ready = true) (ha : AreaLaws s)
    (he : s.engine = .executing long) (hf : s.finishes = false) : s.giveCommand code arg =
      { (s.written (s.commandAccess code arg)).answered (resultOf code .busy (long.code.setWidth 16)) with
        armed := if code = 0x31 then s.armed else false } := by
  by_cases hcode : code = 0x31
  · subst hcode
    have hreceive : (s.written (s.commandAccess 0x31 arg)).receiveCommand (joinBytes 0x31 arg)
        = (s.written (s.commandAccess 0x31 arg)).setResult 0x31 .busy (long.code.setWidth 16) := by
      unfold State.receiveCommand
      rw [Memory.upperByte_join, show (s.written (s.commandAccess 0x31 arg)).engine = .executing long from he]
      rfl
    rw [s.giveCommand_ready 0x31 arg hr ha, hreceive, if_pos rfl]
    exact State.settle_same s _ hf rfl (fun _ => rfl) rfl rfl
  · rw [if_neg hcode]
    exact s.turned_away code arg long hr ha he hf (by rw [Ne, commandOf_freezeSecond_iff]; exact hcode)

/-- Settles O19: a code of no command, and any command word that meets an EXECUTING engine. -/
theorem unknownAndBusy : Obligations.UnknownAndBusy := by
  intro s hr ha
  refine ⟨fun code arg hwf he => ?unknown, fun c code arg long hc he hf => ?busy⟩
  case unknown =>
    rw [exec_commandWord _ code arg s rfl, s.unknown_code code arg hr ha he (commandOf_unknown code (by
      simpa [Instr.wellFormed] using hwf))]
  case busy => rw [exec_commandWord c code arg s hc, s.busy code arg long hr ha he hf]

/-! ### GO ONLINE -/

/-- GO ONLINE from OFFLINE fills every tracked set (R5, R23). -/
theorem State.takeGoOnline_offline (s : State) (h : s.mode = .offline) : s.takeGoOnline =
    { s with
      mode := .online
      changed := Sixteen.ofFn fun w => if (s.window w).tracked then List.range (s.window w).count else s.changedSet w }.setResult
        0x03 .done 0 := by
  unfold State.takeGoOnline
  rw [if_pos h]
  simp only [State.fillSets, Bool.and_true]
  rfl

theorem State.takeGoOnline_active (s : State) (h : s.mode ≠ .offline) :
    s.takeGoOnline = { s with mode := .online }.setResult 0x03 .done 0 := by
  unfold State.takeGoOnline
  rw [if_neg h]
  rfl

/-- Settles O6, by whether the table was inactive. -/
theorem goOnlineResult : Obligations.GoOnlineResult := by
  intro arg s hr he ha
  have hgive : s.giveCommand 0x03 arg = (s.taken 0x03 arg).takeGoOnline := by
    refine s.carried_out_idle 0x03 arg .goOnline hr ha he rfl nofun rfl rfl arg.isLt ?_
    exact ((s.taken 0x03 arg).takeGoOnline_frame).2.2.2.trans he
  rw [exec_commandWord _ 0x03 arg s rfl, hgive]
  refine ⟨fun hm => ?offline, fun hm => ?active⟩
  case offline => rw [(s.taken 0x03 arg).takeGoOnline_offline hm]; rfl
  case active => rw [(s.taken 0x03 arg).takeGoOnline_active hm]; rfl

/-! ### STOP -/

/-- Settles O12, by the state of the lane that the argument names (R120). -/
theorem stopResult : Obligations.StopResult := by
  intro n arg s hr he ha hn
  have hlane : laneOf arg = n := laneOf_eq arg n hn
  have hidle : ((s.taken 0x12 arg).takeStop arg).engine = .idle := ((s.taken 0x12 arg).takeStop_core arg).engine.trans he
  have hgive : s.giveCommand 0x12 arg = (s.taken 0x12 arg).takeStop arg :=
    s.carried_out_idle 0x12 arg .stop hr ha he rfl nofun rfl rfl (hn ▸ n.isLt) hidle
  have hsame : (s.taken 0x12 arg).lane n = s.lane n := rfl
  rw [exec_commandWord _ 0x12 arg s rfl, hgive]
  unfold State.takeStop
  dsimp only
  rw [hlane, hsame]
  refine ⟨fun h => ?stopped, fun h => ?waiting, fun h => ?running, fun h => ?faulted⟩
  case stopped => rw [h]; rfl
  case waiting => rw [h, State.enterStopped_done]; rfl
  case running => obtain h | h := h <;> rw [h] <;> rfl
  case faulted => rw [h]; rfl

/-! ### MARK CHANGED -/

theorem markChanged_available_iff (m : Mode) : Command.available .markChanged m = true ↔ m ≠ .offline := by
  simp [Command.available]

theorem State.takeMarkChanged_untracked (s : State) (arg : Byte) (h : (s.window (windowOf arg)).tracked = false) :
    s.takeMarkChanged arg = s.setResult 0x20 .range (argWord arg) := by
  unfold State.takeMarkChanged
  rw [if_neg (by rw [h]; decide)]
  rfl

/-- A tracked window's set is filled, and no other (R24). -/
theorem State.takeMarkChanged_tracked (s : State) (arg : Byte) (h : (s.window (windowOf arg)).tracked = true) :
    s.takeMarkChanged arg =
      { s with changed := Sixteen.ofFn fun v =>
          if v = windowOf arg then List.range (s.window (windowOf arg)).count else s.changedSet v }.setResult 0x20 .done 0 := by
  have hsets : (fun v => if (s.window v).tracked && v == windowOf arg then List.range (s.window v).count else s.changedSet v)
      = fun v => if v = windowOf arg then List.range (s.window (windowOf arg)).count else s.changedSet v := by
    funext v
    by_cases hv : v = windowOf arg
    · subst hv
      simp [h]
    · simp [hv]
  unfold State.takeMarkChanged
  rw [if_pos h, State.fillSets, hsets]
  rfl

/-- Settles O15, one row of the rule each. -/
theorem markChangedResult : Obligations.MarkChangedResult := by
  intro arg s hr ha
  have hidle : s.engine = .idle → ((s.taken 0x20 arg).takeMarkChanged arg).engine = .idle := fun he =>
    ((s.taken 0x20 arg).takeMarkChanged_core arg).engine.trans he
  rw [exec_commandWord _ 0x20 arg s rfl]
  refine ⟨fun long he hf => ?busy, fun he hm => ?notAvailable, fun he hm hb => ?range, fun w he hm hw => ?carriedOut⟩
  case busy => rw [s.turned_away 0x20 arg long hr ha he hf (by decide)]
  case notAvailable =>
    rw [s.not_available 0x20 arg .markChanged hr ha he rfl nofun (by rw [hm]; rfl), hm]
    rfl
  case range =>
    rw [s.argument_out_of_range 0x20 arg .markChanged hr ha he rfl nofun ((markChanged_available_iff _).2 hm) rfl hb]
    rfl
  case carriedOut =>
    have hgive : s.giveCommand 0x20 arg = (s.taken 0x20 arg).takeMarkChanged arg :=
      s.carried_out_idle 0x20 arg .markChanged hr ha he rfl nofun ((markChanged_available_iff _).2 hm) rfl
        (hw ▸ w.isLt) (hidle he)
    have hwindow : windowOf arg = w := windowOf_eq arg w hw
    have harg : argWord arg = BitVec.ofNat 16 w.val := by
      apply BitVec.eq_of_toNat_eq
      rw [argWord, BitVec.toNat_setWidth, hw, BitVec.toNat_ofNat]
    rw [hgive]
    refine ⟨fun ht => ?untracked, fun ht => ?tracked⟩
    case untracked =>
      rw [(s.taken 0x20 arg).takeMarkChanged_untracked arg (by rw [hwindow]; exact ht), harg]
      rfl
    case tracked =>
      rw [(s.taken 0x20 arg).takeMarkChanged_tracked arg (by rw [hwindow]; exact ht), hwindow]
      rfl

/-! ### FREEZE FIRST and FREEZE SECOND -/

/-- Settles O17, by *armed* and *frozen* (R153). -/
theorem freezeResults : Obligations.FreezeResults := by
  intro arg s hr he ha
  have hfirst : s.giveCommand 0x30 arg = (s.taken 0x30 arg).takeFreezeFirst :=
    s.carried_out_idle 0x30 arg .freezeFirst hr ha he rfl nofun rfl rfl arg.isLt
      (((s.taken 0x30 arg).takeFreezeFirst_core).engine.trans he)
  have hsecond : s.giveCommand 0x31 arg = (s.written (s.commandAccess 0x31 arg)).takeFreezeSecond :=
    (s.freezeSecond_carried_out arg hr ha he).trans
      (State.settle_idle _ (((s.written (s.commandAccess 0x31 arg)).takeFreezeSecond_core).engine.trans he))
  have hfrozen : (s.taken 0x30 arg).frozen = s.frozen := rfl
  have hfrozen' : (s.written (s.commandAccess 0x31 arg)).frozen = s.frozen := rfl
  have harmed : (s.written (s.commandAccess 0x31 arg)).armed = s.armed := rfl
  rw [exec_commandWord _ 0x30 arg s rfl, exec_commandWord _ 0x31 arg s rfl, hfirst, hsecond]
  unfold State.takeFreezeFirst State.takeFreezeSecond
  rw [hfrozen, hfrozen', harmed]
  refine ⟨fun hf => ?_, fun hf => ?_, fun hf hm => ?_, fun h => ?_⟩
  · rw [if_neg (by rw [hf]; decide)]; rfl
  · rw [if_pos hf]; rfl
  · rw [if_pos (by rw [hf, hm]; rfl)]; rfl
  · have hno : ¬ (s.armed && !s.frozen) = true := by
      rw [Bool.and_eq_true, Bool.not_eq_true']
      rintro ⟨h1, h2⟩
      obtain h | h := h
      · rw [h] at h2; cases h2
      · rw [h] at h1; cases h1
    rw [if_neg hno]
    rfl

/-! ### START -/

/-- START ONCE is carried out in ONLINE, with a lane for argument. -/
theorem State.startOnce_carried_out (s : State) (n : Fin 4) (arg : Byte) (hr : s.ready = true) (ha : AreaLaws s)
    (he : s.engine = .idle) (hm : s.mode = .online) (hn : arg.toNat = n.val) :
    s.giveCommand 0x10 arg = (s.taken 0x10 arg).takeStart .startOnce arg .once :=
  s.carried_out_idle 0x10 arg .startOnce hr ha he rfl nofun (by rw [hm]; rfl) rfl (hn ▸ n.isLt)
    (((s.taken 0x10 arg).takeStart_core .startOnce arg .once).engine.trans he)

theorem State.startContinuous_carried_out (s : State) (n : Fin 4) (arg : Byte) (hr : s.ready = true) (ha : AreaLaws s)
    (he : s.engine = .idle) (hm : s.mode = .online) (hn : arg.toNat = n.val) :
    s.giveCommand 0x11 arg = (s.taken 0x11 arg).takeStart .startContinuous arg (s.lane (laneOf arg)).continuousMode :=
  s.carried_out_idle 0x11 arg .startContinuous hr ha he rfl nofun (by rw [hm]; rfl) rfl (hn ▸ n.isLt)
    (((s.taken 0x11 arg).takeStart_core .startContinuous arg (s.lane (laneOf arg)).continuousMode).engine.trans he)

theorem State.takeStart_faulted (s : State) (c : Command) (arg : Byte) (m : StartMode)
    (h : (s.lane (laneOf arg)).state = .faulted) : s.takeStart c arg m = s.setResult c.code .state (argWord arg) := by
  unfold State.takeStart
  rw [if_pos h]

theorem State.takeStart_not_loaded (s : State) (c : Command) (arg : Byte) (m : StartMode)
    (h : (s.lane (laneOf arg)).state ≠ .faulted) (hl : (s.lane (laneOf arg)).loaded = false) :
    s.takeStart c arg m = s.setResult c.code .notLoaded (argWord arg) := by
  unfold State.takeStart
  rw [if_neg h, if_pos (by rw [hl]; rfl)]

theorem State.takeStart_starts (s : State) (c : Command) (arg : Byte) (m : StartMode)
    (h : (s.lane (laneOf arg)).state ≠ .faulted) (hl : (s.lane (laneOf arg)).loaded = true) :
    s.takeStart c arg m = (s.startLane (laneOf arg) m).setResult c.code .done (argWord arg) := by
  unfold State.takeStart
  rw [if_neg h, if_neg (by rw [hl]; decide)]

/-! ### Refusals -/

/-- Settles O10, step by step of R149's list. -/
theorem commandRefusals : Obligations.CommandRefusals := by
  intro arg s hr he ha
  have hmode : ∀ (i : Instr) (code : Byte) (c : Command) (m : Mode), commandWord i = some (code, arg) → commandOf code = some c →
      c ≠ .freezeSecond → c.available m = false → s.mode = m →
      exec i s = .next (s.commanded code arg .notAvailable (BitVec.ofNat 16 m.code)) := fun i code c m hi hc h2 hm hs => by
    rw [exec_commandWord i code arg s hi, s.not_available code arg c hr ha he hc h2 (by rw [hs]; exact hm), hs]
  have hfrozen : ∀ (i : Instr) (code : Byte) (c : Command), commandWord i = some (code, arg) → commandOf code = some c →
      c ≠ .freezeSecond → c.available s.mode = true → c.refusedFrozen = true → s.frozen = true →
      exec i s = .next (s.commanded code arg .frozen 0) := fun i code c hi hc h2 hm hf hs => by
    rw [exec_commandWord i code arg s hi, s.refused_frozen code arg c hr ha he hc h2 hm (by rw [hf, hs]; rfl)]
  have hrange : ∀ (i : Instr) (code : Byte) (c : Command), commandWord i = some (code, arg) → commandOf code = some c →
      c ≠ .freezeSecond → c.available s.mode = true → c.refusedFrozen = false → c.argBound ≤ arg.toNat →
      exec i s = .next (s.commanded code arg .range (arg.setWidth 16)) := fun i code c hi hc h2 hm hf hb => by
    rw [exec_commandWord i code arg s hi, s.argument_out_of_range code arg c hr ha he hc h2 hm (by rw [hf]; rfl) hb]
    rfl
  have honline : s.mode = .online → ∀ c : Command, c = .startOnce ∨ c = .startContinuous → c.available s.mode = true :=
    fun hm c hc => by rw [hm]; obtain rfl | rfl := hc <;> rfl
  refine ⟨fun hm => ?offline, fun hm => ?quiet, fun hf => ?frozen, fun hb => ?range, fun n hm hn => ?start⟩
  case offline =>
    exact ⟨hmode _ 0x02 .goQuiet .offline rfl rfl nofun rfl hm, hmode _ 0x20 .markChanged .offline rfl rfl nofun rfl hm,
      hmode _ 0x21 .releaseLocks .offline rfl rfl nofun rfl hm, hmode _ 0x10 .startOnce .offline rfl rfl nofun rfl hm,
      hmode _ 0x11 .startContinuous .offline rfl rfl nofun rfl hm⟩
  case quiet =>
    exact ⟨hmode _ 0x10 .startOnce .quiet rfl rfl nofun rfl hm, hmode _ 0x11 .startContinuous .quiet rfl rfl nofun rfl hm⟩
  case frozen =>
    exact ⟨hfrozen _ 0x04 .loadSettings rfl rfl nofun rfl rfl hf, hfrozen _ 0x05 .loadWindows rfl rfl nofun rfl rfl hf,
      hfrozen _ 0xA5 .softReset rfl rfl nofun rfl rfl hf⟩
  case range =>
    exact ⟨hrange _ 0x12 .stop rfl rfl nofun rfl rfl hb, hrange _ 0x13 .abort rfl rfl nofun rfl rfl hb,
      hrange _ 0x14 .clear rfl rfl nofun rfl rfl hb, fun hm =>
        ⟨hrange _ 0x10 .startOnce rfl rfl nofun (honline hm _ (Or.inl rfl)) rfl hb,
          hrange _ 0x11 .startContinuous rfl rfl nofun (honline hm _ (Or.inr rfl)) rfl hb⟩⟩
  case start =>
    have hlane : laneOf arg = n := laneOf_eq arg n hn
    rw [exec_commandWord _ 0x10 arg s rfl, exec_commandWord _ 0x11 arg s rfl, s.startOnce_carried_out n arg hr ha he hm hn,
      s.startContinuous_carried_out n arg hr ha he hm hn]
    refine ⟨fun hfault => ?_, fun hstate hload => ?_⟩
    · rw [State.takeStart_faulted _ _ _ _ (by rw [hlane]; exact hfault), State.takeStart_faulted _ _ _ _ (by rw [hlane]; exact hfault)]
      exact ⟨rfl, rfl⟩
    · rw [State.takeStart_not_loaded _ _ _ _ (by rw [hlane]; exact hstate) (by rw [hlane]; exact hload),
        State.takeStart_not_loaded _ _ _ _ (by rw [hlane]; exact hstate) (by rw [hlane]; exact hload)]
      exact ⟨rfl, rfl⟩

end Sys2Proof.Machine
end

section
/-! PROOF. Command words that reach every lane, start or cut one, or begin a long command (R10, R104, R110 to R114, R122, R156,
R157, R160, R163). -/

namespace Sys2Proof.Machine

theorem Lane.active_eq_not (l : Lane) : l.active = !l.atRest := rfl

/-! ### ABORT -/

/-- The record that a cut owes goes back into its changed set (R21). -/
def State.addOwed (s : State) : Option (Fin 16 × Nat) → State
  | some p => s.addChanged p.1 p.2
  | none => s

theorem State.addOwed_eq (s : State) (o : Option (Fin 16 × Nat)) : s.addOwed o = { s with changed := (s.addOwed o).changed } := by
  cases o with
  | none => rfl
  | some p =>
    unfold State.addOwed State.addChanged
    dsimp only
    split <;> rfl

theorem State.mem_addOwed (s : State) (o : Option (Fin 16 × Nat)) (w : Fin 16) (k : Nat) :
    k ∈ (s.addOwed o).changedSet w ↔ k ∈ s.changedSet w ∨ (o = some (w, k) ∧ (s.window w).tracked = true) := by
  cases o with
  | none => simp [State.addOwed]
  | some p =>
    obtain ⟨v, j⟩ := p
    rw [State.addOwed, State.changedSet_addChanged, Option.some.injEq, Prod.mk.injEq]
    split
    case isTrue h =>
      obtain ⟨rfl, ht⟩ := h
      rw [mem_insertIndex]
      constructor
      · rintro (rfl | hk)
        · exact Or.inr ⟨⟨rfl, rfl⟩, ht⟩
        · exact Or.inl hk
      · rintro (hk | ⟨⟨_, rfl⟩, _⟩)
        · exact Or.inr hk
        · exact Or.inl rfl
    case isFalse h =>
      refine ⟨Or.inl, ?_⟩
      rintro (hk | ⟨⟨rfl, rfl⟩, ht⟩)
      · exact hk
      · exact absurd ⟨rfl, ht⟩ h

theorem State.setLane_addChanged (s : State) (n : Fin 4) (l : Lane) (w : Fin 16) (k : Nat) :
    (s.setLane n l).addChanged w k = (s.addChanged w k).setLane n l := by
  by_cases h : (s.window w).tracked = true
  · simp only [State.addChanged, State.window_setLane, h, if_true]
    rfl
  · simp only [State.addChanged, State.window_setLane, h]
    rfl

/-- The lane after a cut: no work, empty buffers, and its call cut (R104). -/
def Lane.workCut (l : Lane) : Lane :=
  { l with work := .none, delayTimer := none, outbound := [], inbound := [], link := l.link.cut l.settings }

theorem State.cutWork_true_eq (s : State) (n : Fin 4) :
    s.cutWork n true = (s.addOwed (s.lane n).owedRecord).setLane n (s.lane n).workCut := by
  unfold State.cutWork
  rw [if_pos rfl]
  split
  case h_1 w k h =>
    rw [h, State.setLane_addChanged]
    rfl
  case h_2 h =>
    rw [h]
    rfl

/-- ABORT on one lane: an active one is cut and stops without an event, with its owed record back in its set (R21, R122). -/
theorem State.cutLane_true_eq (s : State) (n : Fin 4) : s.cutLane n true =
    (s.addOwed (if (s.lane n).active then (s.lane n).owedRecord else none)).setLane n (s.lane n).cutToStop := by
  unfold State.cutLane Lane.cutToStop
  split
  · rw [State.cutWork_true_eq, State.enterStopped_silent, State.lane_setLane_same, State.setLane_setLane]
    rfl
  · exact (State.setLane_lane s n).symm

/-- A call in progress becomes the abort mark; a waiting request is withdrawn (R71, R73). -/
theorem Link.cut_of_call (link : Link) (settings : LaneSettings) (h : link.call ≠ none) : link.cut settings =
    { engine := .mark, divider := settings.divider, timeout := settings.replyTimeout, call := none, request := none
      bit := 0, sub := link.sub, pause := 0, held := link.ldo, received := [], reply := none, expected := 0, taken := 0
      dataBad := false } := by
  unfold Link.cut
  rw [if_pos (Option.isSome_iff_ne_none.2 h)]

theorem Link.cut_of_no_call (link : Link) (settings : LaneSettings) (h : link.call = none) :
    link.cut settings = { link with request := none } := by
  unfold Link.cut
  rw [if_neg (by rw [h]; decide)]

theorem Lane.owedRecord_iff (l : Lane) (w : Fin 16) (k : Nat) : l.owedRecord = some (w, k) ↔
    l.work = .calling ∧ k = l.position ∧ ∃ b sel, l.currentStep = some (.send b sel) ∧ w = sel.window := by
  unfold Lane.owedRecord
  split
  case h_1 b sel hwork hstep =>
    rw [Option.some.injEq, Prod.mk.injEq, hwork, hstep]
    constructor
    · rintro ⟨rfl, rfl⟩
      exact ⟨rfl, rfl, b, sel, rfl, rfl⟩
    · rintro ⟨_, rfl, b', sel', h, rfl⟩
      cases h
      exact ⟨rfl, rfl⟩
  case h_2 hno =>
    refine ⟨nofun, ?_⟩
    rintro ⟨hwork, _, b, sel, hstep, _⟩
    exact (hno b sel hwork hstep).elim

theorem Lane.cutToStop_of_atRest (l : Lane) (h : l.atRest = true) : l.cutToStop = l := by
  unfold Lane.cutToStop
  rw [if_neg (by rw [Lane.active_eq_not, h]; decide)]

theorem Lane.cutToStop_of_active (l : Lane) (h : l.atRest = false) :
    l.cutToStop = { l.restAs .stopped with outbound := [], inbound := [], link := l.link.cut l.settings } := by
  unfold Lane.cutToStop
  rw [if_pos (by rw [Lane.active_eq_not, h]; rfl)]

/-- Settles O13: the row, what it leaves of the lane, and what the cut leaves of the link. -/
theorem abortResult : Obligations.AbortResult := by
  refine ⟨fun n arg s hr he ha hn => ?row, fun l => ⟨l.cutToStop_of_atRest, l.cutToStop_of_active, l.owedRecord_iff⟩,
    fun link settings => ⟨link.cut_of_call settings, link.cut_of_no_call settings⟩⟩
  case row =>
    have hlane : laneOf arg = n := laneOf_eq arg n hn
    have hgive : s.giveCommand 0x13 arg = (s.taken 0x13 arg).takeAbort arg :=
      s.carried_out_idle 0x13 arg .abort hr ha he rfl nofun rfl rfl (hn ▸ n.isLt) (((s.taken 0x13 arg).takeAbort_core arg).engine.trans he)
    have htake : (s.taken 0x13 arg).takeAbort arg = (((s.taken 0x13 arg).addOwed
        (if (s.lane n).active then (s.lane n).owedRecord else none)).setLane n (s.lane n).cutToStop).setResult 0x13 .done (argWord arg) := by
      rw [State.takeAbort, hlane, State.cutLane_true_eq]
      rfl
    refine ⟨_, by rw [exec_commandWord _ 0x13 arg s rfl, hgive], ?_, fun w k => ?_⟩
    · rw [htake, State.addOwed_eq]
      rfl
    · rw [htake]
      refine ((s.taken 0x13 arg).mem_addOwed _ w k).trans (or_congr Iff.rfl ?_)
      by_cases hact : (s.lane n).active = true
      · rw [if_pos hact]
        exact ⟨fun h => ⟨hact, h.1, h.2⟩, fun h => h.2⟩
      · rw [if_neg hact]
        exact ⟨fun h => (nomatch h.1), fun h => absurd h.1 hact⟩

/-! ### START -/

/-- A set that is filled anyway does not need the owed record (R21, R23). -/
theorem State.fillSets_addOwed (s : State) (o : Option (Fin 16 × Nat)) (p : Fin 16 → Bool)
    (h : ∀ r ∈ o, p r.1 = true) : (s.addOwed o).fillSets p = s.fillSets p := by
  cases o with
  | none => rfl
  | some r =>
    have hframe := s.addOwed_eq (some r)
    have hsets : (fun w => if (s.window w).tracked && p w then List.range (s.window w).count else (s.addOwed (some r)).changedSet w)
        = fun w => if (s.window w).tracked && p w then List.range (s.window w).count else s.changedSet w := by
      funext w
      by_cases hw : ((s.window w).tracked && p w) = true
      · rw [if_pos hw, if_pos hw]
      · rw [if_neg hw, if_neg hw, State.addOwed, State.changedSet_addChanged, if_neg]
        rintro ⟨rfl, ht⟩
        exact hw (by rw [ht, h r rfl]; rfl)
    have hwin : ∀ w, (s.addOwed (some r)).window w = s.window w := fun w => by rw [hframe]; rfl
    simp only [State.fillSets, hwin, hsets]
    exact congrArg (fun t : State => { t with changed := Sixteen.ofFn fun w : Fin 16 =>
      if ((s.window w).tracked && p w) = true then List.range (s.window w).count else s.changedSet w }) hframe

theorem State.window_addOwed (s : State) (o : Option (Fin 16 × Nat)) (w : Fin 16) : (s.addOwed o).window w = s.window w := by
  rw [State.addOwed_eq]
  rfl

/-- The run begins at the lane l that a cut has left: the tracked sets of the lane's windows are filled, and the first cycle starts at
once unless the mode is TRIGGER (R110 to R113). -/
theorem State.beginRun_addOwed (s : State) (n : Fin 4) (m : StartMode) (o : Option (Fin 16 × Nat)) (l : Lane)
    (h : ∀ r ∈ o, (s.window r.1).lane = n) : ((s.addOwed o).setLane n l).beginRun n m =
      (s.fillSets fun w => (s.window w).lane == n).setLane n
        (if m = .trigger then l.runBegins m else (l.runBegins m).atCycleStart) := by
  have hfill : ((s.addOwed o).setLane n (l.runBegins m)).fillSets (fun w => ((s.addOwed o).window w).lane == n)
      = (s.fillSets fun w => (s.window w).lane == n).setLane n (l.runBegins m) := by
    simp only [State.window_addOwed]
    exact congrArg (fun t : State => t.setLane n (l.runBegins m)) 
      (s.fillSets_addOwed o (fun w => (s.window w).lane == n) fun r hr => by rw [h r hr, beq_self_eq_true])
  rw [State.beginRun_eq, State.lane_setLane_same, State.setLane_setLane]
  simp only [State.window_setLane]
  rw [hfill, State.startCycle_eq, State.lane_setLane_same, State.setLane_setLane]
  split <;> rfl

/-- The lane as its run begins, once a restart has cut its work (R104, R110, R114). -/
theorem Lane.runBegins_cut (l : Lane) (m : StartMode) :
    (if m = .trigger then (if l.active then l.workCut else l).runBegins m
      else ((if l.active then l.workCut else l).runBegins m).atCycleStart)
    = if m = .trigger then l.startedWaiting else l.startedAtOnce m := by
  by_cases hm : m = .trigger
  · subst hm
    cases hact : l.active <;>
      simp only [Lane.startedWaiting, Lane.cutForRestart, hact, if_true, Bool.false_eq_true, if_false] <;> rfl
  · rw [if_neg hm, if_neg hm]
    unfold Lane.runBegins
    rw [if_neg hm]
    cases hact : l.active <;>
      simp only [Lane.startedAtOnce, Lane.cutForRestart, Bool.false_eq_true, hact, if_true, if_false] <;> rfl

/-- START of a lane, restarted if it was active (R110, R114): the tracked sets of the lane's windows are filled, the owed record's
among them. -/
theorem State.startLane_eq (s : State) (n : Fin 4) (m : StartMode) (howed : ∀ p ∈ (s.lane n).owedRecord, (s.window p.1).lane = n) :
    s.startLane n m = (s.fillSets fun w => (s.window w).lane == n).setLane n
      (if m = .trigger then (s.lane n).startedWaiting else (s.lane n).startedAtOnce m) := by
  have hcut : (if (s.lane n).active then s.cutWork n true else s)
      = (s.addOwed (if (s.lane n).active then (s.lane n).owedRecord else none)).setLane n
          (if (s.lane n).active then (s.lane n).workCut else s.lane n) := by
    by_cases hact : (s.lane n).active = true
    · simp only [if_pos hact, State.cutWork_true_eq]
    · simp only [if_neg hact]
      exact (s.setLane_lane n).symm
  unfold State.startLane
  rw [hcut, s.beginRun_addOwed n m _ _ (fun r hr => ?_), Lane.runBegins_cut]
  split at hr
  · exact howed r hr
  · cases hr

/-- Settles O11, by the source of the cycles for START CONTINUOUS. -/
theorem startResult : Obligations.StartResult := by
  intro n arg s hr he ha hm hn hstate hload howed
  have hlane : laneOf arg = n := laneOf_eq arg n hn
  have hstart : ∀ (code : Byte) (c : Command) (m : StartMode), c.code = code →
      (s.taken code arg).takeStart c arg m = { s.commanded code arg .done (arg.setWidth 16) with
        lanes := s.lanes.set n (if m = .trigger then (s.lane n).startedWaiting else (s.lane n).startedAtOnce m)
        changed := Sixteen.ofFn fun w => if (s.window w).tracked && (s.window w).lane == n
          then List.range (s.window w).count else s.changedSet w } := by
    rintro code c m rfl
    rw [State.takeStart_starts _ _ _ _ (by rw [hlane]; exact hstate) (by rw [hlane]; exact hload), hlane,
      (s.taken c.code arg).startLane_eq n m howed]
    rfl
  rw [exec_commandWord _ 0x10 arg s rfl, exec_commandWord _ 0x11 arg s rfl, s.startOnce_carried_out n arg hr ha he hm hn,
    s.startContinuous_carried_out n arg hr ha he hm hn, hstart 0x10 _ _ rfl, hstart 0x11 _ _ rfl, hlane]
  refine ⟨rfl, ?_⟩
  unfold Lane.continuousMode
  cases (s.lane n).settings.triggerSource <;> rfl

/-! ### Finishes -/

theorem State.settle_goOffline (s : State) (he : s.engine = .executing .goOffline) :
    s.settle = if s.allAtRest && s.slotsEmpty then s.finishLong 0x01 .done 0 else s := by
  unfold State.settle
  rw [he]
  rfl

theorem State.settle_goQuiet (s : State) (he : s.engine = .executing .goQuiet) :
    s.settle = if s.allAtRest then s.finishLong 0x02 .done 0 else s := by
  unfold State.settle
  rw [he]
  rfl

/-! ### GO OFFLINE -/

/-- Settles O8: GO OFFLINE finishes at once when every slot is empty (R157). -/
theorem goOfflineResult : Obligations.GoOfflineResult := by
  intro arg s hr he ha
  have hgive := s.carried_out 0x01 arg .goOffline hr ha he rfl nofun rfl rfl arg.isLt
  have htake : ((s.taken 0x01 arg).carryOutCommand .goOffline arg) = { s.written (s.commandAccess 0x01 arg) with
      armed := false, mode := .offline, lanes := Four.ofFn fun n => (s.lane n).cutToStop, locks := []
      drains := Four.ofFn fun n => s.drains.get n || (s.slots.get n).isSome
      changed := Sixteen.replicate [], engine := .executing .goOffline, result := resultOf 0x01 .executing 0
      resultMarked := true, detailMarked := true } :=
    State.takeGoOffline_eq _
  generalize ht : (s.taken 0x01 arg).carryOutCommand .goOffline arg = u at hgive htake
  have hlane : ∀ n, u.lane n = (s.lane n).cutToStop := fun n => (congrArg (fun v : State => v.lane n) htake).trans (Four.get_ofFn _ n)
  have hrest : u.allAtRest = true := (State.allAtRest_iff u).2 fun n => by rw [hlane]; exact Lane.cutToStop_atRest _
  have hslots : u.slotsEmpty = true ↔ ∀ n, s.slots.get n = none := by rw [State.slotsEmpty_iff, htake]; rfl
  rw [exec_commandWord _ 0x01 arg s rfl, hgive, u.settle_goOffline (by rw [htake]), hrest, Bool.true_and]
  by_cases hempty : ∀ n, s.slots.get n = none
  · rw [if_pos (hslots.2 hempty), htake]
    exact ⟨_, rfl, rfl, fun _ => ⟨rfl, rfl, rfl⟩, fun ⟨n, hn⟩ => absurd (hempty n) hn⟩
  · rw [if_neg (fun h => hempty (hslots.1 h)), htake]
    exact ⟨_, rfl, rfl, fun h => absurd h hempty, fun _ => ⟨rfl, rfl, rfl⟩⟩

/-! ### GO QUIET -/

/-- What GO QUIET makes of one lane, with DONE(n) when it stops at once (R121). -/
theorem State.quietLane_eq (s : State) (n : Fin 4) : s.quietLane n = { s with
    lanes := s.lanes.set n (s.lane n).quieted
    events := if (s.lane n).stopsAtQuiet then s.events ||| BitVec.twoPow 19 (10 + n.val) else s.events } := by
  have hkeep : s = { s with lanes := s.lanes.set n (s.lane n) } := (s.setLane_lane n).symm
  have hactive : ∀ st, (s.lane n).state = st → (s.lane n).active = (st != .stopped && st != .faulted) := by
    rintro st rfl
    cases h : (s.lane n).state <;> simp [Lane.active, Lane.atRest, h]
  unfold State.quietLane Lane.quieted
  dsimp only
  split
  case h_1 h => simp only [Lane.stopsAtQuiet, h, if_true, State.enterStopped_done]
  case h_4 h =>
    simp only [Lane.stopsAtQuiet, h, hactive _ h]
    exact hkeep
  case h_5 h =>
    simp only [Lane.stopsAtQuiet, h, hactive _ h]
    exact hkeep
  all_goals
    rename_i h
    cases hw : (s.lane n).work <;> simp only [Lane.stopsAtQuiet, h, hw, hactive _ h, State.enterStopped_done] <;> rfl

/-- The one bit of a raised event. -/
theorem getLsbD_event_bit (k i : Nat) (hi : i < 19) : (BitVec.twoPow 19 k).getLsbD i = true ↔ i = k := by
  rw [BitVec.getLsbD_twoPow, Bool.and_eq_true, decide_eq_true_eq, decide_eq_true_eq]
  omega

/-- The events that lanes 0 to 3 raise one after the other. -/
theorem getLsbD_foldl_events (f : Fin 4 → Bool) (ns : List (Fin 4)) (e : BitVec 19) (i : Nat) (hi : i < 19) :
    (ns.foldl (fun e n => if f n then e ||| BitVec.twoPow 19 (10 + n.val) else e) e).getLsbD i = true ↔
      e.getLsbD i = true ∨ ∃ n ∈ ns, f n = true ∧ i = 10 + n.val := by
  induction ns generalizing e with
  | nil => simp
  | cons m rest ih =>
    rw [List.foldl_cons, ih]
    simp only [List.mem_cons, or_and_right, exists_or, exists_eq_left]
    rw [← or_assoc]
    refine or_congr ?_ Iff.rfl
    split
    case isTrue h =>
      rw [BitVec.getLsbD_or, Bool.or_eq_true, getLsbD_event_bit _ _ hi]
      simp only [h, true_and]
    case isFalse h => simp [h]

/-- GO QUIET on the four lanes in turn. -/
theorem State.foldl_quietLane (s : State) : laneList.foldl State.quietLane s = { s.mapLanes Lane.quieted with
    events := laneList.foldl (fun e n => if (s.lane n).stopsAtQuiet then e ||| BitVec.twoPow 19 (10 + n.val) else e) s.events } := by
  simp only [laneList, List.foldl_cons, List.foldl_nil, State.quietLane_eq]
  rfl

/-- Settles O7, by the mode; from ONLINE by whether every lane is then at rest. -/
theorem goQuietResult : Obligations.GoQuietResult := by
  intro arg s hr he ha
  refine ⟨fun hm => ?online, fun hm => ?quiet⟩
  case quiet =>
    have htake : (s.taken 0x02 arg).takeGoQuiet = s.commanded 0x02 arg .done 0 := by
      unfold State.takeGoQuiet
      rw [if_pos (show (s.taken 0x02 arg).mode = .quiet from hm)]
      rfl
    rw [exec_commandWord _ 0x02 arg s rfl, s.carried_out_idle 0x02 arg .goQuiet hr ha he rfl nofun (by rw [hm]; rfl) rfl arg.isLt
      ((congrArg State.engine htake).trans he)]
    exact congrArg _ htake
  case online =>
    have hgive := s.carried_out 0x02 arg .goQuiet hr ha he rfl nofun (by rw [hm]; rfl) rfl arg.isLt
    have htake : (s.taken 0x02 arg).carryOutCommand .goQuiet arg = { s.written (s.commandAccess 0x02 arg) with
        armed := false, mode := .quiet, lanes := Four.ofFn fun n => (s.lane n).quieted
        events := laneList.foldl (fun e n => if (s.lane n).stopsAtQuiet then e ||| BitVec.twoPow 19 (10 + n.val) else e) s.events
        engine := .executing .goQuiet, result := resultOf 0x02 .executing 0, resultMarked := true, detailMarked := true } := by
      show (s.taken 0x02 arg).takeGoQuiet = _
      unfold State.takeGoQuiet
      rw [if_neg (by rw [show (s.taken 0x02 arg).mode = s.mode from rfl, hm]; decide), State.foldl_quietLane]
      rfl
    have hevents : ∀ i, i < 19 → ((laneList.foldl (fun e n => if (s.lane n).stopsAtQuiet then e ||| BitVec.twoPow 19 (10 + n.val)
        else e) s.events).getLsbD i = true ↔ s.events.getLsbD i = true ∨ ∃ n : Fin 4, (s.lane n).stopsAtQuiet = true ∧ i = 10 + n.val) :=
      fun i hi => by simp only [getLsbD_foldl_events _ _ _ i hi, mem_laneList, true_and]
    generalize hfold : laneList.foldl (fun e n => if (s.lane n).stopsAtQuiet then e ||| BitVec.twoPow 19 (10 + n.val) else e) s.events
      = events at htake hevents
    generalize (s.taken 0x02 arg).carryOutCommand .goQuiet arg = u at hgive htake
    have hrest : u.allAtRest = true ↔ ∀ n, (s.lane n).quieted.atRest = true := by
      have hlane : ∀ n, u.lane n = (s.lane n).quieted := fun n => (congrArg (fun v : State => v.lane n) htake).trans (Four.get_ofFn _ n)
      simp only [State.allAtRest_iff, hlane]
    have hlanes : ∀ c, 1 ≤ c → c ≤ 19 → ((∃ n : Fin 4, (s.lane n).stopsAtQuiet = true ∧ c - 1 = 10 + n.val)
        ↔ ∃ n : Fin 4, c = 11 + n.val ∧ (s.lane n).stopsAtQuiet = true) := fun c h1 h2 =>
      exists_congr fun n => ⟨fun h => ⟨by omega, h.1⟩, fun h => ⟨h.2, by omega⟩⟩
    rw [exec_commandWord _ 0x02 arg s rfl, hgive, u.settle_goQuiet (by rw [htake])]
    by_cases hall : ∀ n, (s.lane n).quieted.atRest = true
    · rw [if_pos (hrest.2 hall), htake]
      refine ⟨_, rfl, rfl, fun c h1 h2 => ?_, fun _ => ⟨rfl, rfl⟩, fun h => absurd hall h⟩
      show (events ||| BitVec.twoPow 19 18).getLsbD (c - 1) = true ↔ s.events.getLsbD (c - 1) = true ∨ _
      rw [BitVec.getLsbD_or, Bool.or_eq_true, hevents _ (by omega), hlanes c h1 h2, or_assoc]
      refine or_congr Iff.rfl (or_congr Iff.rfl ?_)
      rw [getLsbD_event_bit _ _ (by omega)]
      exact ⟨fun h => ⟨by omega, rfl⟩, fun h => by omega⟩
    · rw [if_neg (fun h => hall (hrest.1 h)), htake]
      refine ⟨_, rfl, rfl, fun c h1 h2 => ?_, fun h => absurd h hall, fun _ => ⟨rfl, rfl⟩⟩
      show events.getLsbD (c - 1) = true ↔ s.events.getLsbD (c - 1) = true ∨ _
      rw [hevents _ (by omega), hlanes c h1 h2]
      refine or_congr Iff.rfl ⟨Or.inl, ?_⟩
      rintro (h | ⟨_, h⟩)
      · exact h
      · cases h

/-! ### SOFT RESET -/

/-- Settles O18: with every status word forced SOFT RESET does not finish as it is taken (R163). -/
theorem softResetResult : Obligations.SoftResetResult := by
  intro arg s hr he ha hcount hf
  have hforced : (s.taken 0xA5 arg).takeSoftReset.finishes = false := by
    obtain ⟨_, _, hlen, _⟩ := hcount
    show ((s.status.map fun w => { w with forced := true }).all fun w => !w.forced) = false
    cases hs : s.status with
    | nil => rw [hs] at hlen; cases hlen
    | cons w rest => rfl
  rw [exec_commandWord _ 0xA5 arg s rfl, s.carried_out 0xA5 arg .softReset hr ha he rfl nofun rfl (by rw [hf]; rfl) arg.isLt]
  exact congrArg _ (State.settle_of_not_finishes _ hforced)

/-! ### LOAD SETTINGS and LOAD WINDOWS -/

/-- The lowest active lane. -/
theorem State.firstActive_eq (s : State) (n : Fin 4) (hn : (s.lane n).active = true)
    (hlow : ∀ m : Fin 4, m < n → (s.lane m).atRest = true) : s.firstActive = some n := by
  have hno : ∀ m : Fin 4, m < n → (s.lane m).active = false := fun m hm => by rw [Lane.active_eq_not, hlow m hm]; rfl
  unfold State.firstActive
  match n with
  | 0 => simp [laneList, hn]
  | 1 => simp [laneList, hn, hno 0 (by decide)]
  | 2 => simp [laneList, hn, hno 0 (by decide), hno 1 (by decide)]
  | 3 => simp [laneList, hn, hno 0 (by decide), hno 1 (by decide), hno 2 (by decide)]

theorem State.takeLoad_active (s : State) (long : LongCommand) (n : Fin 4) (hn : s.firstActive = some n) :
    s.takeLoad long = s.setResult long.code .lanesActive (BitVec.ofNat 16 n.val) := by
  unfold State.takeLoad
  rw [hn]

theorem State.takeLoad_begins (s : State) (long : LongCommand) (h : ∀ n, (s.lane n).atRest = true) :
    s.takeLoad long = s.beginLong long := by
  obtain ⟨n, hn, _⟩ | ⟨_, heq⟩ := s.takeLoad_cases long
  · rw [Lane.active_eq_not, h n] at hn; cases hn
  · exact heq

/-- The end of a command table read before the last of its load: the port is free for the next claim (R10, R160). -/
theorem State.tableReadEnd_eq (s : State) (done : Nat)
    (hp : s.port = some { user := .tableRead, length := 4, writes := [], done := done })
    (h : (∃ staging, s.engine = .executing (.loadSettings staging) ∧ staging.length < 9)
      ∨ ∃ staging, s.engine = .executing (.loadWindows staging) ∧ staging.length < 16) :
    s.tableReadEnd.settle = { s with port := none } := by
  have hend : s.endBurst = { s with port := none } := by
    unfold State.endBurst
    rw [hp]
    rfl
  have hread : s.tableReadEnd = s.endBurst := by
    obtain ⟨heq, hno⟩ | ⟨_, _, _, _, heq | ⟨q, he, hlen, _⟩ | ⟨q, he, hlen, _⟩⟩ := s.tableReadEnd_cases
    · exact absurd rfl (hno _ hp)
    · exact heq
    · obtain ⟨q', he', hlen'⟩ | ⟨q', he', _⟩ := h <;> rw [he'] at he <;> cases he
      exact absurd hlen (Nat.not_le.2 hlen')
    · obtain ⟨q', he', _⟩ | ⟨q', he', hlen'⟩ := h <;> rw [he'] at he <;> cases he
      exact absurd hlen (Nat.not_le.2 hlen')
  rw [hread, hend]
  refine State.settle_of_not_finishes _ ?_
  obtain ⟨q, he, _⟩ | ⟨q, he, _⟩ := h <;> simp only [State.finishes, he]

/-- Settles O9: the loads as they are taken, their reads, and the ends of reads before the last. -/
theorem loadsAreTakenAndRead : Obligations.LoadsAreTakenAndRead := by
  intro s
  refine ⟨fun arg hr he ha hf => ?taken, fun staging => ⟨fun hg he => ?settings, fun hg he => ?windows, fun done hp => ?ends⟩⟩
  case taken =>
    have hset := s.carried_out 0x04 arg .loadSettings hr ha he rfl nofun rfl (by rw [hf]; rfl) arg.isLt
    have hwin := s.carried_out 0x05 arg .loadWindows hr ha he rfl nofun rfl (by rw [hf]; rfl) arg.isLt
    rw [exec_commandWord _ 0x04 arg s rfl, exec_commandWord _ 0x05 arg s rfl, hset, hwin]
    refine ⟨fun hrest => ?_, fun n hn hlow => ?_⟩
    · have h4 : (s.taken 0x04 arg).carryOutCommand .loadSettings arg = (s.taken 0x04 arg).beginLong (.loadSettings []) :=
        State.takeLoad_begins _ _ hrest
      have h5 : (s.taken 0x05 arg).carryOutCommand .loadWindows arg = (s.taken 0x05 arg).beginLong (.loadWindows []) :=
        State.takeLoad_begins _ _ hrest
      rw [h4, h5]
      exact ⟨rfl, rfl⟩
    · have h4 : (s.taken 0x04 arg).carryOutCommand .loadSettings arg
          = (s.taken 0x04 arg).setResult 0x04 .lanesActive (BitVec.ofNat 16 n.val) :=
        State.takeLoad_active _ _ n (s.firstActive_eq n hn hlow)
      have h5 : (s.taken 0x05 arg).carryOutCommand .loadWindows arg
          = (s.taken 0x05 arg).setResult 0x05 .lanesActive (BitVec.ofNat 16 n.val) :=
        State.takeLoad_active _ _ n (s.firstActive_eq n hn hlow)
      rw [h4, h5]
      exact ⟨congrArg _ (State.settle_idle _ he), congrArg _ (State.settle_idle _ he)⟩
  case settings =>
    have hexec : exec .commandTableReadGrant s = .next s.atGrant.tableReadGrant.settle := rfl
    rw [hexec, s.atGrant_grantable _ hg]
    have hgrant : s.tableReadGrant = { s.countGrant .table with
          engine := .executing (.loadSettings (staging ++ [Memory.readQuad s.mem
            (s.blockAddr (if staging.length = 0 then 0x03 else 0x10 + 4 * (staging.length - 1)))]))
          port := some { user := .tableRead, length := 4, writes := [], done := 0 } } := by
      unfold State.tableReadGrant
      simp only [hg, State.countGrant_engine, he]
      rfl
    rw [hgrant]
    rfl
  case windows =>
    have hexec : exec .commandTableReadGrant s = .next s.atGrant.tableReadGrant.settle := rfl
    rw [hexec, s.atGrant_grantable _ hg]
    have hgrant : s.tableReadGrant = { s.countGrant .table with
          engine := .executing (.loadWindows (staging ++ [Memory.readQuad s.mem (s.blockAddr (0x30 + 4 * staging.length))]))
          port := some { user := .tableRead, length := 4, writes := [], done := 0 } } := by
      unfold State.tableReadGrant
      simp only [hg, State.countGrant_engine, he]
      rfl
    rw [hgrant]
    rfl
  case ends =>
    have hexec : exec .commandTableReadEnd s = .next s.tableReadEnd.settle := rfl
    rw [hexec]
    exact ⟨fun he hlen => by rw [s.tableReadEnd_eq done hp (Or.inl ⟨staging, he, hlen⟩)],
      fun he hlen => by rw [s.tableReadEnd_eq done hp (Or.inr ⟨staging, he, hlen⟩)]⟩

end Sys2Proof.Machine
end

section
/-! PROOF. Processor accesses: where addresses fall, what a granted write or read does in the blocks that watch memory, and an
access that waits (R7, R17, R32 to R34, R130 to R133, R141, R169, R170). -/

namespace Sys2Proof.Machine

/-! ### Where addresses fall -/

/-- The one member of a list that has a property is found. -/
theorem find?_eq_some_of_unique {α : Type} (p : α → Bool) (l : List α) (a : α) (ha : a ∈ l) (hp : p a = true)
    (huniq : ∀ b, p b = true → b = a) : l.find? p = some a := by
  cases h : l.find? p with
  | none => rw [List.find?_eq_none] at h; exact absurd hp (h a ha)
  | some b => rw [huniq b (List.find?_some h)]

/-- Word j of record k of a used window lies in its extent, below the end of memory (R3, R4). -/
theorem wordAddr_toNat (e : WindowEntry) (k j : Nat) (hrange : EntryInRange e) (hk : k < e.count) (hj : j < e.size) :
    (e.wordAddr k j).toNat = e.base.toNat + k * e.size + j ∧ k * e.size + j < e.length := by
  have hin : k * e.size + j < e.length := by
    have := Nat.mul_le_mul_right e.size (Nat.succ_le_of_lt hk)
    rw [Nat.succ_mul, Nat.mul_comm e.count] at this
    unfold WindowEntry.length
    omega
  obtain ⟨_, _, _, _, hend⟩ := hrange
  refine ⟨?_, hin⟩
  rw [WindowEntry.wordAddr, BitVec.toNat_ofNat]
  omega

/-- The extents of the windows are disjoint, so that at most one holds an address (R4). -/
theorem State.window_unique (s : State) (ha : AreaLaws s) (v w : Fin 16) (a : Addr) (hv : (s.window v).holds a = true)
    (hw : (s.window w).holds a = true) : v = w := by
  by_contra hne
  rw [WindowEntry.holds_iff] at hv hw
  have hapart := (ha.1 w hw.1).2.2.2 v hne hv.1
  rw [runsOverlap_false] at hapart
  have hv' : v = v := rfl
  simp only [State.window] at hv hw
  omega

/-- A mapped address: its window, record and word (R7). -/
theorem State.place_eq_some (s : State) (ha : AreaLaws s) (a : Addr) (p : Place) : s.place a = some p ↔
    s.tableActive = true ∧ (s.window p.window).holds a = true
      ∧ p.record = (a.toNat - (s.window p.window).base.toNat) / (s.window p.window).size
      ∧ p.word = (a.toNat - (s.window p.window).base.toNat) % (s.window p.window).size := by
  unfold State.place
  split
  case isTrue hactive =>
    rw [Option.map_eq_some_iff]
    constructor
    · rintro ⟨w, hfind, rfl⟩
      have hholds := List.find?_some (p := fun w => (s.window w).holds a) hfind
      exact ⟨hactive, hholds, rfl, rfl⟩
    · rintro ⟨_, hholds, hrec, hword⟩
      refine ⟨p.window, find?_eq_some_of_unique _ _ _ (mem_windowList _) hholds fun v hv => s.window_unique ha v _ a hv hholds, ?_⟩
      obtain ⟨w, k, j⟩ := p
      simp only at hrec hword ⊢
      rw [hrec, hword]
  case isFalse hinactive =>
    exact ⟨nofun, fun h => absurd h.1 hinactive⟩

/-- Settles O21: the quotient and remainder by the record size. -/
theorem addressMapping : Obligations.AddressMapping := by
  intro s ha
  refine ⟨fun w k j hused hk hj => ?_, fun a p hp => ?_, fun hm a => ?_⟩
  · have hrange := (ha.1 w hused).1
    obtain ⟨haddr, hin⟩ := wordAddr_toNat (s.window w) k j hrange hk hj
    refine ⟨haddr, fun hm => ?_⟩
    have hsize : 0 < (s.window w).size := Nat.lt_of_le_of_lt (Nat.zero_le j) hj
    have hoff : ((s.window w).wordAddr k j).toNat - (s.window w).base.toNat = j + k * (s.window w).size := by omega
    rw [s.place_eq_some ha]
    dsimp only
    refine ⟨by simpa [State.tableActive] using hm, ?_, ?_, ?_⟩
    · rw [WindowEntry.holds_iff]
      exact ⟨hused, by omega, by omega⟩
    · rw [hoff, Nat.add_mul_div_right _ _ hsize, Nat.div_eq_of_lt hj, Nat.zero_add]
    · rw [hoff, Nat.add_mul_mod_self_right, Nat.mod_eq_of_lt hj]
  · obtain ⟨_, hused, hk⟩ := s.place_in_window a p hp
    obtain ⟨_, hholds, hrec, hword⟩ := (s.place_eq_some ha a p).1 hp
    rw [WindowEntry.holds_iff] at hholds
    obtain ⟨_, hlo, _⟩ := hholds
    have hrange := (ha.1 p.window hused).1
    have hsize : 0 < (s.window p.window).size := hrange.2.1
    have hj : p.word < (s.window p.window).size := by rw [hword]; exact Nat.mod_lt _ hsize
    refine ⟨hused, hk, hj, BitVec.eq_of_toNat_eq ?_⟩
    rw [(wordAddr_toNat (s.window p.window) p.record p.word hrange hk hj).1, hrec, hword, Nat.add_assoc, Nat.mul_comm,
      Nat.div_add_mod]
    omega
  · unfold State.place
    rw [if_neg (by simp [State.tableActive, hm])]

/-- A mapped address lies neither in the control block nor in a program area (R4). -/
theorem State.mapped_apart (s : State) (ha : AreaLaws s) (a : Addr) (p : Place) (hp : s.place a = some p) :
    s.blockOffset a = none ∧ ∀ n, (s.lane n).inProgramArea a = false := by
  refine ⟨?_, fun n => ?_⟩
  · cases h : s.blockOffset a with
    | none => rfl
    | some off => rw [s.place_block ha a off h] at hp; cases hp
  · obtain ⟨_, hholds, _⟩ := (s.place_eq_some ha a p).1 hp
    rw [WindowEntry.holds_iff] at hholds
    rw [Bool.eq_false_iff]
    intro hin
    obtain ⟨page, hpage, hlo, hhi⟩ := ((s.lane n).inProgramArea_iff a).1 hin
    have hapart := (ha.1 p.window hholds.1).2.2.1 n page hpage
    rw [runsOverlap_false] at hapart
    simp only [State.window] at hholds
    omega

theorem State.guarded_mapped (s : State) (ha : AreaLaws s) (a : Addr) (p : Place) (hp : s.place a = some p) :
    s.guarded a = false := by
  obtain ⟨hblock, harea⟩ := s.mapped_apart ha a p hp
  unfold State.guarded
  rw [hblock]
  simp only [harea, Bool.false_and, Bool.false_or]
  split <;> simp

/-! ### Forwarded writes -/

/-- A write that the part can take at once and that no guard blocks. -/
theorem State.giveAccess_write (s : State) (a : Access) (hr : s.ready = true) (hw : a.write = true) (hg : s.guarded a.addr = false) :
    s.giveAccess a = ((s.written a).snoopWrite a).settle := by
  rw [s.giveAccess_ready a hr, s.grantAccess_write a hw ((s.ready_iff).1 hr).1 hg]

/-- A read that the part can take at once. -/
theorem State.giveAccess_read (s : State) (a : Access) (hr : s.ready = true) (hw : a.write = false) :
    s.giveAccess a = ((s.answeredRead a.addr a.sel).snoopRead a (Memory.readWord s.mem a.addr)).settle := by
  rw [s.giveAccess_ready a hr, s.grantAccess_read a hw ((s.ready_iff).1 hr).1]

/-- Outside the command and acknowledge words a write is seen by the change tracker alone. -/
theorem State.snoopWrite_elsewhere (s : State) (a : Access) (h0 : s.blockOffset a.addr = some 0 → a.sel ≠ .both)
    (h1 : s.blockOffset a.addr ≠ some 1) (h2 : s.blockOffset a.addr ≠ some 2) :
    s.snoopWrite a = s.addOwed ((s.place a.addr).map fun p => (p.window, p.record)) := by
  unfold State.snoopWrite
  cases s.place a.addr <;> dsimp only
  all_goals
    split
    case h_1 h => rw [if_neg (h0 h)]; rfl
    case h_2 h => exact absurd h h1
    case h_3 h => exact absurd h h2
    case h_4 => rfl

theorem State.addOwed_untracked (s : State) (w : Fin 16) (k : Nat) (h : (s.window w).tracked = false) :
    s.addOwed (some (w, k)) = s := by
  show s.addChanged w k = s
  unfold State.addChanged
  rw [if_neg (by rw [h]; decide)]

/-- Settles O20: the row, and what memory holds after it. -/
theorem processorWriteForwarded : Obligations.ProcessorWriteForwarded := by
  refine ⟨fun addr data sel s hr hf hg htrack h0 h1 h2 => ?row, fun a s hm => ?memory⟩
  case row =>
    have hsnoop : (s.written { write := true, addr := addr, data := data, sel := sel }).snoopWrite
        { write := true, addr := addr, data := data, sel := sel } = s.written { write := true, addr := addr, data := data, sel := sel } := by
      rw [State.snoopWrite_elsewhere _ _ h0 h1 h2]
      cases hp : s.place addr with
      | none =>
        rw [show (s.written { write := true, addr := addr, data := data, sel := sel }).place addr = none from hp]
        rfl
      | some p =>
        rw [show (s.written { write := true, addr := addr, data := data, sel := sel }).place addr = some p from hp]
        exact State.addOwed_untracked _ _ _ (htrack p hp)
    show Host.Outcome.next (s.giveAccess _) = _
    rw [s.giveAccess_write _ hr rfl hg, hsnoop]
    exact congrArg _ (State.settle_of_not_finishes _ hf)
  case memory =>
    obtain ⟨write, addr, data, sel⟩ := a
    refine ⟨?_, ?_, ?_, fun b hb => Memory.readWord_writeSel_other _ _ _ _ _ hb hm⟩
    · rintro rfl
      exact Memory.readWord_writeWord_same _ _ _ hm
    · rintro rfl
      exact Memory.readWord_writeLower_same _ _ _ hm
    · rintro rfl
      exact Memory.readWord_writeUpper_same _ _ _ hm

/-- Settles O22: a mapped address is no word of the control block, and its tracked record joins its set. -/
theorem trackedWriteAddsRecord : Obligations.TrackedWriteAddsRecord := by
  intro addr data sel p s hr hf ha hp ht
  let a : Access := { write := true, addr := addr, data := data, sel := sel }
  have hblock : (s.written a).blockOffset addr = none := (s.mapped_apart ha addr p hp).1
  have hplace : (s.written a).place a.addr = some p := hp
  have hsnoop : (s.written a).snoopWrite a = (s.written a).addOwed (some (p.window, p.record)) := by
    rw [State.snoopWrite_elsewhere _ a (by rw [hblock]; exact nofun) (by rw [hblock]; exact nofun) (by rw [hblock]; exact nofun), hplace]
    rfl
  have hsettle : ((s.written a).addOwed (some (p.window, p.record))).settle = (s.written a).addOwed (some (p.window, p.record)) := by
    rw [State.addOwed_eq]
    exact State.settle_same s _ hf rfl (fun _ => rfl) rfl rfl
  have hexec : exec (.trackedMirrorWrite addr data sel) s = .next ((s.written a).addOwed (some (p.window, p.record))) := by
    show Host.Outcome.next (s.giveAccess a) = _
    rw [s.giveAccess_write a hr rfl (s.guarded_mapped ha addr p hp), hsnoop, hsettle]
  refine ⟨_, hexec, State.addOwed_eq _ _, fun w k => ?_⟩
  refine ((s.written a).mem_addOwed _ w k).trans (or_congr Iff.rfl ?_)
  rw [Option.some.injEq, Prod.mk.injEq]
  constructor
  · rintro ⟨⟨rfl, rfl⟩, _⟩
    exact ⟨rfl, rfl⟩
  · rintro ⟨rfl, rfl⟩
    exact ⟨⟨rfl, rfl⟩, ht⟩

/-! ### Guarded areas -/

theorem State.guarded_running (s : State) (a : Addr) (h : s.phase = .running) : s.guarded a = true ↔
    (∃ off ∈ s.blockOffset a, (0x80 ≤ off ∧ off ≤ 0xAF) ∨ (s.frozen = true ∧ 0x03 ≤ off ∧ off ≤ 0x7F))
    ∨ ∃ n, (s.lane n).inProgramArea a = true ∧ ((s.lane n).active = true ∨ s.frozen = true) := by
  unfold State.guarded
  rw [h]
  simp only [Bool.or_eq_true, List.any_eq_true, Bool.and_eq_true, mem_laneList, true_and]
  refine or_congr ?_ Iff.rfl
  cases s.blockOffset a <;> simp [statusAreaOffset, imageOffset]

/-- Settles O23: the guarded areas by their addresses, and what a blocked write does. -/
theorem guardBlocksWrites : Obligations.GuardBlocksWrites := by
  intro addr s hphase
  refine ⟨?areas, fun data sel hr hf hg => ?blocked⟩
  case areas =>
    rw [s.guarded_running addr hphase]
    have hoff : ∀ lo hi : Nat, hi < 256 → ((∃ off ∈ s.blockOffset addr, lo ≤ off ∧ off ≤ hi)
        ↔ s.base.toNat + lo ≤ addr.toNat ∧ addr.toNat ≤ s.base.toNat + hi) := by
      intro lo hi hlt
      constructor
      · rintro ⟨off, hoff, h1, h2⟩
        have := (s.blockOffset_eq addr off).1 hoff
        omega
      · rintro ⟨h1, h2⟩
        exact ⟨addr.toNat - s.base.toNat, (s.blockOffset_eq addr _).2 (by omega), by omega, by omega⟩
    have hblock : (∃ off ∈ s.blockOffset addr, (0x80 ≤ off ∧ off ≤ 0xAF) ∨ (s.frozen = true ∧ 0x03 ≤ off ∧ off ≤ 0x7F))
        ↔ (s.base.toNat + 0x80 ≤ addr.toNat ∧ addr.toNat ≤ s.base.toNat + 0xAF)
          ∨ (s.frozen = true ∧ s.base.toNat + 0x03 ≤ addr.toNat ∧ addr.toNat ≤ s.base.toNat + 0x7F) := by
      rw [← hoff 0x80 0xAF (by decide), ← hoff 0x03 0x7F (by decide)]
      constructor
      · rintro ⟨off, hmem, h | ⟨hfrozen, h⟩⟩
        · exact Or.inl ⟨off, hmem, h⟩
        · exact Or.inr ⟨hfrozen, off, hmem, h⟩
      · rintro (⟨off, hmem, h⟩ | ⟨hfrozen, off, hmem, h⟩)
        · exact ⟨off, hmem, Or.inl h⟩
        · exact ⟨off, hmem, Or.inr ⟨hfrozen, h⟩⟩
    rw [hblock, or_assoc]
    refine or_congr Iff.rfl (or_congr Iff.rfl (exists_congr fun n => ?_))
    rw [Lane.inProgramArea_iff]
    constructor
    · rintro ⟨⟨p, hp, h1, h2⟩, hact⟩
      exact ⟨p, hp, h1, Nat.le_of_lt_succ h2, hact⟩
    · rintro ⟨p, hp, h1, h2, hact⟩
      exact ⟨⟨p, hp, h1, Nat.lt_succ_of_le h2⟩, hact⟩
  case blocked =>
    show Host.Outcome.next (s.giveAccess _) = _
    rw [s.giveAccess_ready _ hr, s.grantAccess_blocked _ rfl hphase hg]
    exact congrArg _ (State.settle_of_not_finishes _ hf)

end Sys2Proof.Machine
end

section
/-! PROOF. Acknowledge writes, reads of the cause word, reads of records with read locking, and an access that waits (R32 to R34,
R141, R169, R170). -/

namespace Sys2Proof.Machine

/-! ### Cleared events -/

theorem State.isPending_clearEvents (s : State) (mask : BitVec 19) (c : Nat) (h1 : 1 ≤ c) (h2 : c ≤ 19) :
    (s.clearEvents mask).isPending c = true ↔ s.isPending c = true ∧ ¬ mask.getLsbD (c - 1) = true := by
  have hc : c - 1 < 19 := by omega
  simp [State.isPending, State.clearEvents, hc]

/-- The bits of a data word in the bytes that a write enables (R130, R169). -/
theorem getLsbD_enabled_bytes (d : Word) (sel : ByteSel) (i : Nat) (hi : i < 16) :
    (joinBytes (if selUpper sel then upperByte d else 0) (if selLower sel then lowerByte d else 0)).getLsbD i = true ↔
      ((i < 8 ∧ sel ≠ .upper) ∨ (8 ≤ i ∧ sel ≠ .lower)) ∧ d.getLsbD i = true := by
  rw [joinBytes, BitVec.getLsbD_append]
  by_cases h : i < 8
  · have h8 : ¬ 8 ≤ i := by omega
    rw [if_pos h]
    cases sel <;> simp [selLower, lowerByte, h, h8]
  · have hge : 8 ≤ i := by omega
    have hlt : i - 8 < 8 := by omega
    have hadd : 8 + (i - 8) = i := by omega
    rw [if_neg h]
    cases sel <;> simp [selUpper, upperByte, h, hge, hlt, hadd]

/-- The event bits that a write to ACK0 names (R169). -/
theorem getLsbD_ackMask_first (d : Word) (sel : ByteSel) (i : Nat) (hi : i < 19) : (ackMask false d sel).getLsbD i = true ↔
    i < 16 ∧ ((i < 8 ∧ sel ≠ .upper) ∨ (8 ≤ i ∧ sel ≠ .lower)) ∧ d.getLsbD i = true := by
  show (BitVec.setWidth 19 (joinBytes _ _)).getLsbD i = true ↔ _
  rw [BitVec.getLsbD_setWidth, Bool.and_eq_true, decide_eq_true_eq]
  by_cases h : i < 16
  · rw [getLsbD_enabled_bytes d sel i h]
    exact ⟨fun hb => ⟨h, hb.2⟩, fun hb => ⟨hi, hb.2⟩⟩
  · rw [BitVec.getLsbD_of_ge _ _ (by omega)]
    exact ⟨nofun, fun hb => absurd hb.1 h⟩

/-- The event bits that a write to ACK1 names (R169). -/
theorem getLsbD_ackMask_second (d : Word) (sel : ByteSel) (i : Nat) (hi : i < 19) : (ackMask true d sel).getLsbD i = true ↔
    16 ≤ i ∧ sel ≠ .upper ∧ d.getLsbD (i - 16) = true := by
  show (BitVec.extractLsb' 0 3 (joinBytes _ _) ++ (0 : BitVec 16)).getLsbD i = true ↔ _
  rw [BitVec.getLsbD_append]
  by_cases h : i < 16
  · rw [if_pos h, show (0 : BitVec 16).getLsbD i = false from BitVec.getLsbD_zero]
    exact ⟨nofun, fun hb => absurd hb.1 (Nat.not_le.2 h)⟩
  · rw [if_neg h, BitVec.getLsbD_extractLsb', Nat.zero_add, Bool.and_eq_true, decide_eq_true_eq,
      getLsbD_enabled_bytes d sel _ (by omega)]
    constructor
    · rintro ⟨_, ⟨_, hsel⟩ | ⟨hge, _⟩, hd⟩
      · exact ⟨by omega, hsel, hd⟩
      · omega
    · rintro ⟨_, hsel, hd⟩
      exact ⟨by omega, Or.inl ⟨by omega, hsel⟩, hd⟩

/-- The code that a read of the cause word clears, for the codes of events (R170). -/
theorem causeCode_eq (w : Word) (sel : ByteSel) (c : Nat) (h1 : 1 ≤ c) (h2 : c ≤ 19) :
    causeCode w sel = c ↔ (sel = .both ∧ w.toNat = c) ∨ (sel = .lower ∧ (lowerByte w).toNat = c) := by
  unfold causeCode
  cases sel with
  | both => simp; split <;> omega
  | lower => simp; split <;> omega
  | upper => simp; omega

/-- The event that a read of the cause word clears (R170). -/
theorem State.isPending_clearCause (s : State) (w : Word) (sel : ByteSel) (c : Nat) (h1 : 1 ≤ c) (h2 : c ≤ 19) :
    (s.clearCause w sel).isPending c = true ↔ s.isPending c = true ∧ ¬ causeCode w sel = c := by
  unfold State.clearCause
  dsimp only
  split
  case isTrue h => rw [h]; exact ⟨fun hp => ⟨hp, by omega⟩, fun hp => hp.1⟩
  case isFalse h =>
    rw [State.isPending_clearEvents _ _ _ h1 h2, getLsbD_event_bit _ _ (by omega)]
    exact and_congr Iff.rfl (not_congr ⟨fun he => by omega, fun he => by omega⟩)

theorem State.clearCause_eq (s : State) (w : Word) (sel : ByteSel) :
    s.clearCause w sel = { s with events := (s.clearCause w sel).events } := by
  unfold State.clearCause
  dsimp only
  split <;> rfl

/-- An acknowledge write that the part can take at once (R169). -/
theorem State.giveAccess_acknowledge (s : State) (second : Bool) (data : Word) (sel : ByteSel) (hr : s.ready = true)
    (hf : s.finishes = false) (ha : AreaLaws s) :
    s.giveAccess { write := true, addr := s.blockAddr (if second then 2 else 1), data := data, sel := sel }
      = (s.written { write := true, addr := s.blockAddr (if second then 2 else 1), data := data, sel := sel }).clearEvents
          (ackMask second data sel) := by
  let a : Access := { write := true, addr := s.blockAddr (if second then 2 else 1), data := data, sel := sel }
  have hoff : s.blockOffset a.addr = some (if second then 2 else 1) := s.blockOffset_blockAddr _ (by split <;> decide)
  have hg : s.guarded a.addr = false := by
    rw [s.guarded_block ha ((s.ready_iff).1 hr).1 _ _ hoff]
    cases second <;> simp [statusAreaOffset, imageOffset]
  have hplace : (s.written a).place a.addr = none := s.place_block ha _ _ hoff
  have hoff' : (s.written a).blockOffset a.addr = some (if second then 2 else 1) := hoff
  have hsnoop : (s.written a).snoopWrite a = (s.written a).clearEvents (ackMask second data sel) := by
    unfold State.snoopWrite
    rw [hplace, hoff']
    cases second <;> rfl
  rw [s.giveAccess_write a hr rfl hg, hsnoop]
  exact State.settle_same s _ hf rfl (fun _ => rfl) rfl rfl

/-- A read of the cause word that the part can take at once (R170). -/
theorem State.giveAccess_causeRead (s : State) (sel : ByteSel) (hr : s.ready = true) (hf : s.finishes = false) (ha : AreaLaws s) :
    s.giveAccess { write := false, addr := s.blockAddr 0x83, data := 0, sel := sel }
      = (s.answeredRead (s.blockAddr 0x83) sel).clearCause (Memory.readWord s.mem (s.blockAddr 0x83)) sel := by
  let a : Access := { write := false, addr := s.blockAddr 0x83, data := 0, sel := sel }
  have hoff : s.blockOffset a.addr = some 0x83 := s.blockOffset_blockAddr _ (by decide)
  have hplace : (s.answeredRead a.addr sel).place a.addr = none := s.place_block ha _ _ hoff
  have hoff' : (s.answeredRead a.addr sel).blockOffset a.addr = some 0x83 := hoff
  have hsnoop : ∀ w, (s.answeredRead a.addr sel).snoopRead a w = (s.answeredRead a.addr sel).clearCause w sel := fun w => by
    unfold State.snoopRead
    rw [hplace, hoff']
    rfl
  rw [s.giveAccess_read a hr rfl, hsnoop, State.clearCause_eq]
  exact State.settle_same s _ hf rfl (fun _ => rfl) rfl rfl

/-- Settles O24: the events of the enabled acknowledge bits, and the event of the returned cause. -/
theorem eventsCleared : Obligations.EventsCleared := by
  intro sel s hr hf ha
  refine ⟨fun second data => ?acknowledge, ?cause⟩
  case acknowledge =>
    refine ⟨_, congrArg Host.Outcome.next (s.giveAccess_acknowledge second data sel hr hf ha), rfl, fun c h1 h2 => ?_⟩
    rw [State.isPending_clearEvents _ _ _ h1 h2]
    refine and_congr Iff.rfl (not_congr ?_)
    cases second
    · rw [getLsbD_ackMask_first _ _ _ (by omega)]
      constructor
      · rintro ⟨hlt, ⟨hlo, hsel⟩ | ⟨hhi, hsel⟩, hd⟩
        · exact Or.inl ⟨rfl, by omega, hsel, hd⟩
        · exact Or.inr (Or.inl ⟨rfl, by omega, by omega, hsel, hd⟩)
      · rintro (⟨_, hlo, hsel, hd⟩ | ⟨_, hlo, hhi, hsel, hd⟩ | ⟨h, _⟩)
        · exact ⟨by omega, Or.inl ⟨by omega, hsel⟩, hd⟩
        · exact ⟨by omega, Or.inr ⟨by omega, hsel⟩, hd⟩
        · cases h
    · rw [getLsbD_ackMask_second _ _ _ (by omega), show c - 1 - 16 = c - 17 by omega]
      constructor
      · rintro ⟨hge, hsel, hd⟩
        exact Or.inr (Or.inr ⟨rfl, by omega, hsel, hd⟩)
      · rintro (⟨h, _⟩ | ⟨h, _⟩ | ⟨_, hge, hsel, hd⟩)
        · cases h
        · cases h
        · exact ⟨by omega, hsel, hd⟩
  case cause =>
    refine ⟨_, congrArg Host.Outcome.next (s.giveAccess_causeRead sel hr hf ha), State.clearCause_eq _ _ _, fun c h1 h2 => ?_⟩
    rw [State.isPending_clearCause _ _ _ _ h1 h2, causeCode_eq _ _ _ h1 h2]
    rfl

/-! ### Reads of records with read locking -/

/-- A read of a mapped word that the part can take at once is seen by the lock unit alone. -/
theorem State.giveAccess_lockRead (s : State) (addr : Addr) (sel : ByteSel) (w : Fin 16) (k j : Nat) (hr : s.ready = true)
    (ha : AreaLaws s) (hl : (s.window w).locking = true) (hp : s.place addr = some { window := w, record := k, word := j }) :
    s.giveAccess { write := false, addr := addr, data := 0, sel := sel }
      = (if j = 0 then (s.answeredRead addr sel).createLock w k
          else if j = (s.window w).size - 1 then (s.answeredRead addr sel).stampRelease w k else s.answeredRead addr sel).settle := by
  have hoff : (s.answeredRead addr sel).blockOffset addr = none := (s.mapped_apart ha addr _ hp).1
  have hplace : (s.answeredRead addr sel).place addr = some { window := w, record := k, word := j } := hp
  have hlocking : ((s.answeredRead addr sel).window w).locking = true := hl
  have hsize : ((s.answeredRead addr sel).window w).size = (s.window w).size := rfl
  rw [s.giveAccess_read _ hr rfl]
  simp only [State.snoopRead, hplace, hoff, hlocking, hsize, if_true, reduceCtorEq, if_false]

/-- A new lock in a table with room (R30 to R32). -/
theorem State.createLock_room (s : State) (w : Fin 16) (k : Nat) (hfree : s.locked w k = false) (hlen : s.locks.length < 4) :
    s.createLock w k = { s with
      locks := s.locks ++ [{ window := w, record := k, remaining := s.settings.lockTime * 64 }] } := by
  have hevict : s.evictIfFull = s := by
    unfold State.evictIfFull
    cases hlocks : s.locks with
    | nil => rfl
    | cons oldest rest =>
      rw [hlocks] at hlen
      exact if_neg (Nat.not_le.2 hlen)
  unfold State.createLock
  rw [if_neg (by rw [hfree]; decide), hevict]
  rfl

/-- No other entry of the lock table names the oldest entry's record (R30). -/
theorem LockLaws.filter_oldest {s : State} (h : LockLaws s) (oldest : LockEntry) (rest : List LockEntry)
    (hlocks : s.locks = oldest :: rest) : (s.locks.filter fun l => !l.names oldest.window oldest.record) = rest := by
  obtain ⟨_, hnodup, _⟩ := h
  rw [hlocks, List.map_cons, List.nodup_cons] at hnodup
  have hself : oldest.names oldest.window oldest.record = true := by simp [LockEntry.names]
  rw [hlocks, List.filter_cons_of_neg (by rw [hself]; decide), List.filter_eq_self]
  intro l hl
  rw [Bool.not_eq_true', Bool.eq_false_iff]
  intro hnames
  simp only [LockEntry.names, Bool.and_eq_true, beq_iff_eq] at hnames
  exact hnodup.1 (List.mem_map.2 ⟨l, hl, by rw [hnames.1, hnames.2]⟩)

/-- A new lock in a full table evicts the oldest, with LOCKDROP and the drain claim of a held entry (R33). -/
theorem State.createLock_full (s : State) (w : Fin 16) (k : Nat) (hfree : s.locked w k = false) (h : LockLaws s)
    (oldest : LockEntry) (rest : List LockEntry) (hlocks : s.locks = oldest :: rest) (hlen : rest.length = 3) :
    s.createLock w k = { s with
      locks := rest ++ [{ window := w, record := k, remaining := s.settings.lockTime * 64 }]
      drains := Four.ofFn fun n => s.drains.get n || slotHolds (s.slots.get n) oldest.window oldest.record
      events := s.events ||| BitVec.twoPow 19 5 } := by
  have hevict : s.evictIfFull = (s.releaseLock oldest.window oldest.record).raise .lockDrop := by
    unfold State.evictIfFull
    rw [hlocks]
    exact if_pos (by rw [List.length_cons, hlen]; decide)
  have hrel : (s.releaseLock oldest.window oldest.record).locks = rest := h.filter_oldest oldest rest hlocks
  unfold State.createLock
  rw [if_neg (by rw [hfree]; decide), hevict]
  simp only [State.raise_locks, hrel]
  rfl

/-- Settles O25: what a read of the first word and of the stamp does in the lock unit (R32 to R34). -/
theorem lockingReads : Obligations.LockingReads := by
  intro addr sel w k s hr hf ha hl
  have hfirst : exec (.firstWordRead addr sel) s = .next (s.giveAccess { write := false, addr := addr, data := 0, sel := sel }) := rfl
  have hstamp : exec (.stampRead addr sel) s = .next (s.giveAccess { write := false, addr := addr, data := 0, sel := sel }) := rfl
  have hsettle : ∀ t : State, t.engine = s.engine → t.lanes = s.lanes → t.slots = s.slots → t.status = s.status → t.settle = t :=
    fun t h1 h2 h3 h4 => State.settle_same s t hf h1 (fun n => by simp only [State.lane, h2]) h3 h4
  have hlocked : ∀ b, s.locked w k = b → (s.answeredRead addr sel).locked w k = b := fun _ h => h
  refine ⟨fun hp => ?first, fun hp => ?stamp⟩
  case first =>
    rw [hfirst, s.giveAccess_lockRead addr sel w k 0 hr ha hl hp, if_pos rfl]
    refine ⟨fun h => ?_, fun h hlen => ?_, fun h hlaws oldest rest hlocks hlen => ?_⟩
    · rw [State.createLock, if_pos (hlocked _ h)]
      exact congrArg _ (hsettle _ rfl rfl rfl rfl)
    · rw [(s.answeredRead addr sel).createLock_room w k h hlen]
      exact congrArg _ (hsettle _ rfl rfl rfl rfl)
    · rw [(s.answeredRead addr sel).createLock_full w k h hlaws oldest rest hlocks hlen]
      exact congrArg _ (hsettle _ rfl rfl rfl rfl)
  case stamp =>
    have hsize : (s.window w).size - 1 ≠ 0 := by
      have hused : (s.window w).used = true ∧ (s.window w).kind = .feed := by
        simp only [WindowEntry.locking, Bool.and_eq_true, beq_iff_eq] at hl
        exact hl.1
      have := (ha.1 w hused.1).1.2.2.2.1 hused.2
      simp only [State.window]
      omega
    rw [hstamp, s.giveAccess_lockRead addr sel w k _ hr ha hl hp, if_neg hsize, if_pos rfl]
    unfold State.stampRelease
    refine ⟨fun h => ?_, fun h => ?_⟩
    · rw [if_pos (hlocked _ h)]
      exact congrArg _ (hsettle _ rfl rfl rfl rfl)
    · rw [if_neg (by rw [hlocked _ h]; decide)]
      exact congrArg _ (hsettle _ rfl rfl rfl rfl)

/-! ### An access that waits -/

theorem LaneFrame.upstream {n : Fin 4} {s t : State} (h : LaneFrame n s t) : t.upstream = s.upstream := by rw [h.1]

theorem State.upstream_foldl (f : State → Fin 4 → State) (hf : ∀ t n, (f t n).upstream = t.upstream) (ns : List (Fin 4)) (s : State) :
    (ns.foldl f s).upstream = s.upstream := by
  induction ns generalizing s with
  | nil => rfl
  | cons n rest ih => exact (ih (f s n)).trans (hf s n)

/-- No command touches the upstream port. -/
theorem State.carryOutCommand_upstream (s : State) (c : Command) (arg : Byte) : (s.carryOutCommand c arg).upstream = s.upstream := by
  have hstart : ∀ c m, (s.takeStart c arg m).upstream = s.upstream := by
    intro c m
    unfold State.takeStart
    dsimp only
    split
    · rfl
    · split
      · rfl
      · exact (LaneFrame.startLane s _ m).upstream
  cases c with
  | goOffline => rw [show s.carryOutCommand .goOffline arg = s.takeGoOffline from rfl, State.takeGoOffline_eq]; rfl
  | goQuiet =>
    show s.takeGoQuiet.upstream = _
    unfold State.takeGoQuiet
    split
    · rfl
    · exact State.upstream_foldl _ (fun t n => (LaneFrame.quietLane t n).upstream) laneList _
  | goOnline =>
    show s.takeGoOnline.upstream = _
    unfold State.takeGoOnline
    dsimp only
    split <;> rfl
  | loadSettings | loadWindows =>
    obtain ⟨n, _, heq⟩ | ⟨_, heq⟩ := s.takeLoad_cases _
    · exact (congrArg State.upstream heq).trans rfl
    · exact (congrArg State.upstream heq).trans rfl
  | startOnce => exact hstart _ _
  | startContinuous => exact hstart _ _
  | stop =>
    show (s.takeStop arg).upstream = _
    unfold State.takeStop
    dsimp only
    split <;> rfl
  | abort => exact (LaneFrame.cutLane s (laneOf arg) true).upstream
  | clear =>
    show (s.takeClear arg).upstream = _
    unfold State.takeClear
    dsimp only
    split <;> rfl
  | markChanged =>
    show (s.takeMarkChanged arg).upstream = _
    unfold State.takeMarkChanged
    dsimp only
    split <;> rfl
  | releaseLocks => rfl
  | freezeFirst =>
    show s.takeFreezeFirst.upstream = _
    unfold State.takeFreezeFirst
    split <;> rfl
  | freezeSecond =>
    show s.takeFreezeSecond.upstream = _
    unfold State.takeFreezeSecond
    split <;> rfl
  | softReset => rfl

theorem upstream_accessKept : AccessKept fun s => s.upstream = none where
  passed _ _ _ := rfl
  memory _ _ _ _ h := h
  answer s t ht h := by
    unfold AnswerFrame at ht
    rw [ht]
    exact h
  addChanged s _ p _ h := by rw [State.addChanged_upstream]; exact h
  createLock s _ p _ _ h := by
    have hevict : s.evictIfFull.upstream = s.upstream := by
      unfold State.evictIfFull
      split
      · split <;> rfl
      · rfl
    show (s.createLock p.window p.record).upstream = none
    unfold State.createLock
    split
    · exact h
    · exact hevict.trans h
  releaseLock _ _ _ h := h
  carryOut s c arg _ _ _ h := (s.carryOutCommand_upstream c arg).trans h

theorem EngineFrame.upstream {s t : State} (h : EngineFrame s t) : t.upstream = s.upstream := by
  unfold EngineFrame at h
  rw [h]

/-- Settles O26: the access waits at the upstream port or passes it. -/
theorem accessWaits : Obligations.AccessWaits := by
  intro a s hu
  have hserve : s.serveWaiting a = s := by
    unfold State.serveWaiting
    rw [hu]
  have hexec : exec (.accessWait a) s = .next (s.arrive a) := rfl
  rw [hexec]
  unfold State.arrive
  rw [hserve]
  refine ⟨fun hg => ⟨by rw [if_neg (by rw [hg]; decide)], rfl⟩, fun hg => ⟨by rw [if_pos hg], ?_⟩⟩
  have hnone := upstream_accessKept.grantAccess s a (s.canCount_of_accessGrantable hg) hu
  rw [State.hwaitAsserted, (EngineFrame.settle (s.grantAccess a)).upstream]
  exact Option.isSome_eq_false_iff.2 (Option.isNone_iff_eq_none.2 hnone)

end Sys2Proof.Machine
end

section
/-! PROOF. Resets, and the step itself (R131, R134, R142, R143, R176; log entry 2). -/

namespace Sys2Proof.Machine

/-! ### Reset values -/

/-- Every block holds its reset value but for what a reset keeps or is given: the queue, memory, the straps, the upstream port, the
input levels, and the status words. -/
def IsReset (t : State) : Prop :=
  t = { State.powerOn t.strap t.mem with
    pending := t.pending, phase := t.phase, upstream := t.upstream, readData := t.readData, ldi := t.ldi,
    resetCause := t.resetCause, status := t.status }

theorem resetValues_powerOn (strap : BitVec 2) (mem : List Host.Cell) (pending : List Instr) (phase : Phase)
    (upstream : Option Access) (readData : ReadReturn) (ldi : Four (List Bool)) (cause : ResetCause) (status : List StatusSlot)
    (hforced : ∀ w ∈ status, w.forced = true) :
    ResetValues { State.powerOn strap mem with
      pending := pending, phase := phase, upstream := upstream, readData := readData, ldi := ldi, resetCause := cause
      status := status } := by
  have hlane : ∀ n, (Four.replicate Lane.reset).get n = Lane.reset := Four.get_replicate _
  have hlinks : ∀ n, (Four.replicate Lane.reset).get n = Lane.reset → ∀ b : Bool, (b && xor
      ((Four.replicate Lane.reset).get n).settings.activeLow ((Four.replicate Lane.reset).get n).pulseTimer.isSome) = false :=
    fun n h b => by rw [h]; exact Bool.and_false b
  refine ⟨fun w => Sixteen.get_replicate _ w, rfl, fun w => Sixteen.get_replicate _ w, rfl, fun n => Four.get_replicate _ n,
    fun n => Four.get_replicate _ n, fun n => ?links, fun n => ?lanes, fun n => ?states, fun n => ?settings,
    rfl, rfl, rfl, rfl, rfl, rfl, rfl, rfl, rfl, ?result, rfl, rfl, rfl, rfl, rfl, rfl, rfl, rfl, rfl, rfl, ?cause, rfl, ?irq, rfl, hforced⟩
  case links =>
    refine ⟨?_, ?_, ?_, hlinks n (hlane n) _, ?_, ?_⟩ <;> simp only [State.lane, State.powerOn, hlane] <;> rfl
  case lanes => simp only [State.lane, State.powerOn, hlane]; exact ⟨rfl, rfl, rfl, rfl, rfl, rfl, rfl, rfl, rfl⟩
  case states => simp only [State.lane, State.powerOn, hlane]; exact ⟨rfl, rfl, rfl, rfl, rfl, rfl, rfl, rfl, rfl, rfl⟩
  case settings => simp only [State.lane, State.powerOn, hlane]; exact ⟨rfl, rfl, rfl, rfl, rfl, rfl, rfl, rfl⟩
  case result => exact show joinBytes 0 0 = 0 by decide
  case cause => simp [State.cause, State.powerOn, eventCodes]
  case irq => simp [State.irqAsserted, State.powerOn]

theorem IsReset.values {t : State} (h : IsReset t) (hforced : ∀ w ∈ t.status, w.forced = true) : ResetValues t := by
  have := resetValues_powerOn t.strap t.mem t.pending t.phase t.upstream t.readData t.ldi t.resetCause t.status hforced
  rw [← h] at this
  exact this

theorem isReset_blocksReset (s : State) (phase : Phase) (cause : ResetCause) : IsReset (s.blocksReset phase cause) := rfl

theorem forced_blocksReset (s : State) (phase : Phase) (cause : ResetCause) : ∀ w ∈ (s.blocksReset phase cause).status, w.forced = true := by
  intro w hw
  obtain ⟨v, _, rfl⟩ := List.mem_map.1 hw
  rfl

/-! ### Accesses while a reset lasts -/

/-- While a reset holds the part no claim waits (R131). -/
theorem State.claims_in_reset (s : State) (h : s.phase ≠ .running) (src : Source) : s.claims src = false := by
  unfold State.claims
  rw [beq_false_of_ne h, Bool.false_and, Bool.false_and]

theorem State.claimWaiting_of_claims (s : State) (h : s.claimWaiting = true) : ∃ src, s.claims src = true := by
  obtain ⟨src, hsrc⟩ := Option.isSome_iff_exists.1 h
  exact ⟨src, s.claims_of_bridgeChoice src hsrc⟩

theorem State.claimWaiting_in_reset (s : State) (h : s.phase ≠ .running) : s.claimWaiting = false := by
  rw [Bool.eq_false_iff]
  intro hc
  obtain ⟨src, hsrc⟩ := s.claimWaiting_of_claims hc
  rw [s.claims_in_reset h src] at hsrc
  cases hsrc

/-- A read while a reset lasts is answered and seen by no block (R130, R131). -/
theorem State.grantAccess_read_in_reset (s : State) (a : Access) (hw : a.write = false) (h : s.phase ≠ .running) :
    s.grantAccess a = s.answeredRead a.addr a.sel := by
  show (if a.write then s.passed.grantWrite a else s.passed.grantRead a) = _
  rw [if_neg (by rw [hw]; decide)]
  unfold State.grantRead
  exact if_neg h

/-- A write while a reset lasts is forwarded unless it is guarded, and no block sees it (R131, R134). -/
theorem State.grantAccess_write_in_reset (s : State) (a : Access) (hw : a.write = true) (h : s.phase ≠ .running) :
    s.grantAccess a = if s.guarded a.addr then s.passed else s.written a := by
  show (if a.write then s.passed.grantWrite a else s.passed.grantRead a) = _
  rw [if_pos hw]
  unfold State.grantWrite
  rw [show s.passed.guarded a.addr = s.guarded a.addr from rfl]
  split
  · exact if_neg h
  · exact if_neg h

/-- While RST# is asserted the status area alone is guarded (R134). -/
theorem State.guarded_hardReset (s : State) (a : Addr) (h : s.phase = .hardReset) (hf : s.frozen = false)
    (hrest : ∀ n, (s.lane n).atRest = true) :
    s.guarded a = true ↔ s.base.toNat + 0x80 ≤ a.toNat ∧ a.toNat ≤ s.base.toNat + 0xAF := by
  have hlanes : (laneList.any fun n => (s.lane n).inProgramArea a && ((s.lane n).active || s.frozen)) = false := by
    rw [List.any_eq_false]
    intro n _
    simp [Lane.active, hrest n, hf]
  unfold State.guarded
  rw [h, hlanes]
  simp only [hf, Bool.false_and, Bool.or_false]
  cases hoff : s.blockOffset a with
  | none =>
    simp only [Bool.false_eq_true, false_iff]
    rintro ⟨h1, h2⟩
    exact nomatch hoff.symm.trans ((s.blockOffset_eq a (a.toNat - s.base.toNat)).2 (by omega))
  | some off =>
    have := (s.blockOffset_eq a off).1 hoff
    simp only [statusAreaOffset, Bool.and_eq_true, decide_eq_true_eq]
    omega

theorem IsReset.passed {t : State} (h : IsReset t) (hp : t.phase ≠ .running) : IsReset t.passed := by
  have hfair : (if t.claimWaiting then t.arbiter.fairness + 1 else 0) = 0 := if_neg (by rw [t.claimWaiting_in_reset hp]; decide)
  have harb : t.passed.arbiter = (State.powerOn t.strap t.mem).arbiter := by
    show { t.arbiter with fairness := if t.claimWaiting then t.arbiter.fairness + 1 else 0 } = _
    rw [hfair, congrArg State.arbiter h]
    rfl
  have hkeep : t.passed = { t with arbiter := t.passed.arbiter, upstream := none } := rfl
  unfold IsReset
  rw [harb] at hkeep
  generalize t.passed = u at *
  rw [hkeep]
  rw [IsReset] at h
  exact congrArg (fun v : State => { v with arbiter := (State.powerOn t.strap t.mem).arbiter, upstream := none }) h

theorem IsReset.with_memory {t : State} (h : IsReset t) (m : List Host.Cell) (r : ReadReturn) :
    IsReset { t with mem := m, readData := r } := by
  unfold IsReset at h
  exact (congrArg (fun v : State => ({ v with mem := m, readData := r } : State)) h :)

/-! ### RST# and power-on reset -/

/-- What the cut burst leaves of memory (R142). -/
theorem State.cutBurst_mem (s : State) (late : Nat) :
    (∀ b, s.port = some b → (s.cutBurst late).mem = Memory.writeAll s.mem (b.writes.take (b.done + late + 1)))
    ∧ (s.port = none → (s.cutBurst late).mem = s.mem) := by
  unfold State.cutBurst
  cases s.port with
  | none => exact ⟨nofun, fun _ => rfl⟩
  | some b => exact ⟨fun c hc => by cases hc; rfl, nofun⟩

theorem State.cutBurst_frame (s : State) (late : Nat) : (s.cutBurst late).strap = s.strap
    ∧ (s.cutBurst late).pending = s.pending ∧ (s.cutBurst late).readData = s.readData ∧ (s.cutBurst late).upstream = s.upstream := by
  unfold State.cutBurst
  split <;> exact ⟨rfl, rfl, rfl, rfl⟩

/-- Words that the cut burst does not write stay as they were (R142). -/
theorem State.cutBurst_other (s : State) (late : Nat) (hm : MemoryLaw s) (a : Addr)
    (h : ∀ b ∈ s.port, ∀ p ∈ b.writes, p.1 ≠ a) : Memory.readWord (s.cutBurst late).mem a = Memory.readWord s.mem a := by
  obtain ⟨hcut, hnone⟩ := s.cutBurst_mem late
  cases hp : s.port with
  | none => rw [hnone hp]
  | some b =>
    rw [hcut b hp]
    exact Memory.readWord_writeAll_other _ _ _ (fun p hmem => h b hp p (List.mem_of_mem_take hmem)) hm

/-- Settles O4: the reset state, and the access that the cut lets through. -/
theorem hardResetAssertOutcome : Obligations.HardResetAssertOutcome := by
  intro late s hphase
  obtain ⟨hstrap, hpending, hread, hup⟩ := s.cutBurst_frame late
  have hexec : exec (.hardResetAssert late) s = .next (((s.cutBurst late).blocksReset .hardReset .hard).grantWaiting) :=
    congrArg Host.Outcome.next (if_neg hphase)
  let r : State := (s.cutBurst late).blocksReset .hardReset .hard
  have hreset : IsReset r := isReset_blocksReset _ _ _
  have hforced : ∀ w ∈ r.status, w.forced = true := forced_blocksReset _ _ _
  have hnotRunning : r.phase ≠ .running := nofun
  have hbase : r.base = s.base := congrArg baseOfStrap hstrap
  have hmem : ∀ a, s.upstream = some a → r.grantWaiting = r.grantAccess a := fun a ha => by
    unfold State.grantWaiting
    rw [show r.upstream = some a from hup.trans ha]
  obtain ⟨hport, hfree⟩ := s.cutBurst_mem late
  suffices h : ∃ (m : List Host.Cell) (x : ReadReturn),
      (r.grantWaiting = { r with mem := m, readData := x } ∧ s.upstream = none
        ∨ r.grantWaiting = { r.passed with mem := m, readData := x })
      ∧ (s.upstream = none → m = r.mem ∧ x = s.readData)
      ∧ ∀ a, s.upstream = some a →
        (a.write = false → m = r.mem ∧ x = returnedBytes (Memory.readWord r.mem a.addr) a.sel)
        ∧ (a.write = true → x = s.readData
          ∧ m = if s.base.toNat + 0x80 ≤ a.addr.toNat ∧ a.addr.toNat ≤ s.base.toNat + 0xAF then r.mem
              else Memory.writeSel r.mem a.addr a.data a.sel) by
    obtain ⟨m, x, hform, hnone, hsome⟩ := h
    have hvalues : ResetValues r.grantWaiting ∧ r.grantWaiting.phase = .hardReset ∧ r.grantWaiting.resetCause = .hard
        ∧ r.grantWaiting.strap = s.strap ∧ r.grantWaiting.upstream = none ∧ r.grantWaiting.pending = s.pending
        ∧ r.grantWaiting.mem = m ∧ r.grantWaiting.readData = x := by
      obtain ⟨heq, hu⟩ | heq := hform
      · rw [heq]
        exact ⟨(hreset.with_memory m x).values hforced, rfl, rfl, hstrap, hup.trans hu, hpending, rfl, rfl⟩
      · rw [heq]
        exact ⟨((hreset.passed hnotRunning).with_memory m x).values hforced, rfl, rfl, hstrap, rfl, hpending, rfl, rfl⟩
    obtain ⟨hv, hp, hc, hs, hu, hq, hm, hx⟩ := hvalues
    refine ⟨_, r.mem, hexec, hv, hp, hc, hs, hu, hq, hport, hfree, s.cutBurst_other late, fun h => ?_, fun a ha => ?_⟩
    · rw [hm, hx]; exact hnone h
    · rw [hm, hx]
      exact ⟨fun h => (hsome a ha).1 h, fun h => (hsome a ha).2 h⟩
  cases hupstream : s.upstream with
  | none =>
    have hkeep : r.readData = s.readData := hread
    have hwait : r.grantWaiting = r := by
      unfold State.grantWaiting
      rw [show r.upstream = none from hup.trans hupstream]
    exact ⟨r.mem, s.readData, Or.inl ⟨by rw [hwait, ← hkeep], rfl⟩, fun _ => ⟨rfl, rfl⟩, nofun⟩
  | some a =>
    have hguard : r.guarded a.addr = true ↔ s.base.toNat + 0x80 ≤ a.addr.toNat ∧ a.addr.toNat ≤ s.base.toNat + 0xAF := by
      rw [← hbase]
      exact r.guarded_hardReset a.addr rfl rfl fun n => by
        show ((Four.replicate Lane.reset).get n).atRest = true
        rw [Four.get_replicate]
        rfl
    have hkeep : r.readData = s.readData := hread
    rw [hmem a hupstream]
    cases hw : a.write with
    | false =>
      refine ⟨r.mem, returnedBytes (Memory.readWord r.mem a.addr) a.sel,
        Or.inr (r.grantAccess_read_in_reset a hw hnotRunning), nofun, fun b hb => ?_⟩
      cases hb
      exact ⟨fun _ => ⟨rfl, rfl⟩, fun h => (nomatch hw.symm.trans h)⟩
    | true =>
      rw [r.grantAccess_write_in_reset a hw hnotRunning]
      by_cases hg : r.guarded a.addr = true
      · rw [if_pos hg]
        refine ⟨r.mem, s.readData, Or.inr (by rw [← hkeep]; rfl), nofun, fun b hb => ?_⟩
        cases hb
        exact ⟨fun h => (nomatch hw.symm.trans h), fun _ => ⟨rfl, (if_pos (hguard.1 hg)).symm⟩⟩
      · rw [if_neg hg]
        refine ⟨Memory.writeSel r.mem a.addr a.data a.sel, s.readData, Or.inr (by rw [← hkeep]; rfl), nofun, fun b hb => ?_⟩
        cases hb
        exact ⟨fun h => (nomatch hw.symm.trans h), fun _ => ⟨rfl, (if_neg fun h => hg (hguard.2 h)).symm⟩⟩

theorem State.accessWait_in_reset (s : State) (a : Access) (hphase : s.phase ≠ .running) (hport : s.port = none)
    (hu : s.upstream = none) : exec (.accessWait a) s = .next (s.grantAccess a).settle := by
  have hserve : s.serveWaiting a = s := by
    unfold State.serveWaiting
    rw [hu]
  have hgrant : s.accessGrantable = true := by
    unfold State.accessGrantable
    rw [hport, s.claimWaiting_in_reset hphase]
    rfl
  show Host.Outcome.next (s.arrive a) = _
  unfold State.arrive
  rw [hserve, if_pos hgrant]

/-- Settles O5: how resets end and begin, and the accesses that pass in them. -/
theorem resetEnds : Obligations.ResetEnds := by
  intro s
  refine ⟨fun straps hp => ?release, fun straps hp => ?ends, fun straps sram => ?supplies, fun late straps hp => ?nothing,
    fun a hp hport hu hf => ?access, fun h => ?_, fun h => ?_, fun h => ?_, fun h => ?_⟩
  case release =>
    refine ⟨{ s.blocksReset .running .hard with strap := straps }, congrArg Host.Outcome.next (if_pos hp),
      IsReset.values rfl (forced_blocksReset s .running .hard), rfl, rfl, rfl, rfl, rfl, rfl, rfl, List.length_map ..⟩
  case ends =>
    refine ⟨{ s.blocksReset .running .powerOn with strap := straps }, congrArg Host.Outcome.next (if_pos hp),
      IsReset.values rfl (forced_blocksReset s .running .powerOn), rfl, rfl, rfl, rfl, rfl, rfl, rfl, List.length_map ..⟩
  case supplies =>
    refine ⟨s.suppliesGood sram, rfl, IsReset.values rfl fun w hw => ?_, rfl, rfl, rfl, rfl, List.length_replicate ..⟩
    rw [List.eq_of_mem_replicate (show w ∈ List.replicate statusWords { written := 0, forced := true } from hw)]
  case nothing =>
    refine ⟨congrArg Host.Outcome.next (if_pos hp), congrArg Host.Outcome.next (if_neg ?_)⟩
    rw [hp]
    exact nofun
  case access =>
    have hsettle : ∀ t : State, t.engine = s.engine → t.lanes = s.lanes → t.slots = s.slots → t.status = s.status → t.settle = t :=
      fun t h1 h2 h3 h4 => State.settle_same s t hf h1 (fun n => by simp only [State.lane, h2]) h3 h4
    rw [s.accessWait_in_reset a hp hport hu]
    refine ⟨fun hw => ?_, fun hw hpower => ?_, fun hw hhard hfrozen hrest => ?_⟩
    · rw [s.grantAccess_read_in_reset a hw hp]
      exact congrArg _ (hsettle _ rfl rfl rfl rfl)
    · have hg : s.guarded a.addr = false := by
        unfold State.guarded
        rw [hpower]
      rw [s.grantAccess_write_in_reset a hw hp, hg]
      exact congrArg _ (hsettle _ rfl rfl rfl rfl)
    · have hg := s.guarded_hardReset a.addr hhard hfrozen hrest
      rw [s.grantAccess_write_in_reset a hw hp]
      by_cases hin : s.base.toNat + 0x80 ≤ a.addr.toNat ∧ a.addr.toNat ≤ s.base.toNat + 0xAF
      · rw [if_pos (hg.2 hin), if_pos hin]
        exact congrArg _ (hsettle _ rfl rfl rfl rfl)
      · rw [if_neg (fun h => hin (hg.1 h)), if_neg hin]
        exact congrArg _ (hsettle _ rfl rfl rfl rfl)
  all_goals
    rw [State.base, h]
    rfl

/-- Settles O3: the laws hold since nothing is used, loaded, locked or claimed. -/
theorem resetState : Obligations.ResetState := by
  have hlane : ∀ n, State.reset.lane n = Lane.reset := fun n => Four.get_replicate _ n
  have hslot : ∀ n, State.reset.slots.get n = none := fun n => Four.get_replicate _ n
  have hdrain : ∀ n, State.reset.drains.get n = false := fun n => Four.get_replicate _ n
  have hsets : ∀ w, State.reset.changedSet w = [] := fun w => Sixteen.get_replicate _ w
  have htracked : Tracked True State.reset :=
    Tracked.of_reset (fun n => by rw [hlane]; exact ⟨rfl, rfl, rfl, rfl⟩) hsets hslot hdrain
  obtain ⟨htracker, hhold⟩ := (tracked_true_iff _).1 htracked
  have hcore : CoreReset State.reset :=
    ⟨rfl, fun n => by rw [hlane]; rfl, fun n => by rw [hlane]; rfl, rfl, rfl, fun _ => nofun⟩
  refine ⟨IsReset.values rfl fun w hw => ?_, rfl, rfl, rfl, rfl, rfl, rfl, Memory.wf_reset, LockLaws.of_no_locks rfl, hhold,
    AreaLaws.of_reset hcore, SettingsLaws.of_reset hcore, htracker, by decide, fun n => ?_, rfl, by decide⟩
  · rw [List.eq_of_mem_replicate (show w ∈ List.replicate statusWords { written := 0, forced := true } from hw)]
  · rw [hlane]; decide

/-! ### The step -/

/-- Settles O1. -/
theorem stepRunsFrontCommand : Obligations.StepRunsFrontCommand := by
  intro c rest s h
  unfold step
  rw [h]

theorem State.dueLock_eq_some (s : State) (c : Instr) (h : s.dueLock = some c) :
    ∃ l ∈ s.locks, l.remaining = 0 ∧ c = .lockExpiry l.window l.record := by
  obtain ⟨l, hfind, rfl⟩ := Option.map_eq_some_iff.1 h
  exact ⟨l, List.mem_of_find?_eq_some hfind, by simpa using List.find?_some hfind, rfl⟩

theorem Lane.dueTimer_eq_some (l : Lane) (n : Fin 4) (c : Instr) (h : l.dueTimer n = some c) :
    (l.periodTimer = some 0 ∧ c = .periodTick n) ∨ (l.work = .delay ∧ l.delayTimer = some 0 ∧ c = .waitDelayExpiry n)
      ∨ (l.pulseTimer = some 0 ∧ c = .pulseRunOut n) := by
  unfold Lane.dueTimer at h
  split at h
  case isTrue hp => cases h; exact Or.inl ⟨hp, rfl⟩
  case isFalse =>
    split at h
    case isTrue hd =>
      cases h
      simp only [Bool.and_eq_true, decide_eq_true_eq, beq_iff_eq] at hd
      exact Or.inr (Or.inl ⟨hd.1, hd.2, rfl⟩)
    case isFalse =>
      split at h
      case isTrue hp => cases h; exact Or.inr (Or.inr ⟨hp, rfl⟩)
      case isFalse => cases h

theorem Lane.dueTimer_eq_none (l : Lane) (n : Fin 4) (h : l.dueTimer n = none) :
    l.periodTimer ≠ some 0 ∧ l.pulseTimer ≠ some 0 ∧ (l.work = .delay → l.delayTimer ≠ some 0) := by
  unfold Lane.dueTimer at h
  split at h
  · cases h
  case isFalse hp =>
    split at h
    · cases h
    case isFalse hd =>
      split at h
      · cases h
      case isFalse hq =>
        simp only [Bool.and_eq_true, decide_eq_true_eq, beq_iff_eq, not_and] at hd
        exact ⟨hp, hq, hd⟩

theorem State.dueBurstEnd_eq_some (s : State) (c : Instr) (h : s.dueBurstEnd = some c) : ∃ b ∈ s.port, b.length ≤ b.done
    ∧ (c = .captureBurstEnd ∨ c = .commitBurstEnd ∨ c = .drainBurstEnd ∨ c = .commandTableReadEnd) := by
  unfold State.dueBurstEnd at h
  split at h
  case h_2 => cases h
  case h_1 b hb =>
    split at h
    case isFalse => cases h
    case isTrue hlen => split at h <;> cases h <;> exact ⟨b, hb, hlen, by simp⟩

theorem State.dueGrant_eq_some (s : State) (c : Instr) (h : s.dueGrant = some c) :
    (∃ a, s.upstream = some a ∧ s.accessGrantable = true ∧ c = .accessWait a) ∨ ∃ src, s.grantable = some src ∧ c = src.grantRow := by
  have hgrant : s.grantable.map Source.grantRow = some c → ∃ src, s.grantable = some src ∧ c = src.grantRow := fun hg => by
    obtain ⟨src, hsrc, rfl⟩ := Option.map_eq_some_iff.1 hg
    exact ⟨src, hsrc, rfl⟩
  unfold State.dueGrant at h
  split at h
  case h_1 a ha =>
    split at h
    case isTrue hg => cases h; exact Or.inl ⟨a, ha, hg, rfl⟩
    case isFalse => exact Or.inr (hgrant h)
  case h_2 => exact Or.inr (hgrant h)

theorem State.grantable_of_dueGrant_none (s : State) (h : s.dueGrant = none) : s.grantable = none := by
  unfold State.dueGrant at h
  split at h
  · split at h
    · cases h
    · exact Option.map_eq_none_iff.1 h
  · exact Option.map_eq_none_iff.1 h

theorem findSome?_laneList_eq_some {α : Type} (f : Fin 4 → Option α) (x : α) (h : laneList.findSome? f = some x) : ∃ n, f n = some x := by
  obtain ⟨n, _, hn⟩ := List.exists_of_findSome?_eq_some h
  exact ⟨n, hn⟩

theorem findSome?_laneList_eq_none {α : Type} (f : Fin 4 → Option α) (h : laneList.findSome? f = none) (n : Fin 4) : f n = none :=
  List.findSome?_eq_none_iff.1 h n (mem_laneList n)

/-- What 62.5 ns do, field by field. -/
theorem State.advance_eq (s : State) : s.advance = { s with
    locks := s.locks.map fun l => { l with remaining := l.remaining - 1 }
    lanes := Four.ofFn fun n => { s.lane n with
      delayTimer := (s.lane n).delayTimer.map fun k => k - 1
      periodTimer := (s.lane n).periodTimer.map fun k => k - 1
      pulseTimer := (s.lane n).pulseTimer.map fun k => k - 1
      link := (s.lane n).link.advance ((s.ldi.get n).headD false) }
    ldi := Four.ofFn fun n =>
      if ((s.lane n).link.engine = .replyWait ∨ (s.lane n).link.engine = .reply ∨ (s.lane n).link.engine = .dataWait
          ∨ (s.lane n).link.engine = .data) ∧ (s.lane n).link.divider ≤ (s.lane n).link.sub + 1
        then (s.ldi.get n).drop 1 else s.ldi.get n
    port := s.port.bind fun b =>
      if (b.user = .status ∨ ∃ n, b.user = .fetch n) ∧ b.length ≤ b.done + 1 then none
      else some { b with done := b.done + 1 } } := by
  have hlevel : ∀ l : List Bool, nextLevel l = l.headD false := fun l => by cases l <;> rfl
  have hsample : ∀ l : Link, (l.samples && l.bitEnds) = true ↔
      (l.engine = .replyWait ∨ l.engine = .reply ∨ l.engine = .dataWait ∨ l.engine = .data) ∧ l.divider ≤ l.sub + 1 := fun l => by
    cases h : l.engine <;> simp [Link.samples, Link.bitEnds, h]
  have hends : ∀ u : BurstUser, u.endsItself = true ↔ u = .status ∨ ∃ n, u = .fetch n := fun u => by
    cases u <;> simp [BurstUser.endsItself]
  have hburst : ∀ b : Burst, b.advance = if (b.user = .status ∨ ∃ n, b.user = .fetch n) ∧ b.length ≤ b.done + 1 then none
      else some { b with done := b.done + 1 } := fun b => by
    simp only [Burst.advance, Bool.and_eq_true, hends, decide_eq_true_eq]
  unfold State.advance
  simp only [Lane.advance, hlevel, hsample, countDown, funext hburst]

/-- Settles O2: the due events in the order in which the model looks for them, or 62.5 ns. -/
theorem stepOnEmptyQueue : Obligations.StepOnEmptyQueue := by
  intro s hpending
  refine ⟨fun c hdue => ⟨?_, ?_⟩, fun hdue => ?_⟩
  · unfold step
    rw [hpending, hdue]
  · simp only [State.dueEvent, Option.or_eq_some_iff] at hdue
    obtain hlock | ⟨_, htimer | ⟨_, hlink | ⟨_, hburst | ⟨_, hgrant⟩⟩⟩⟩ := hdue
    · exact Or.inl (s.dueLock_eq_some c hlock)
    · obtain ⟨n, hn⟩ := findSome?_laneList_eq_some _ c htimer
      obtain h | h | h := (s.lane n).dueTimer_eq_some n c hn
      · exact Or.inr (Or.inl ⟨n, h⟩)
      · exact Or.inr (Or.inr (Or.inl ⟨n, h⟩))
      · exact Or.inr (Or.inr (Or.inr (Or.inl ⟨n, h⟩)))
    · exact Or.inr (Or.inr (Or.inr (Or.inr (Or.inl (findSome?_laneList_eq_some _ c hlink)))))
    · exact Or.inr (Or.inr (Or.inr (Or.inr (Or.inr (Or.inl (s.dueBurstEnd_eq_some c hburst))))))
    · exact Or.inr (Or.inr (Or.inr (Or.inr (Or.inr (Or.inr (s.dueGrant_eq_some c hgrant))))))
  · have hstep : step s = .next s.advance := by
      unfold step
      rw [hpending, hdue]
    simp only [State.dueEvent, Option.or_eq_none_iff] at hdue
    obtain ⟨hlock, htimer, hlink, _, hgrant⟩ := hdue
    refine ⟨fun l hl hzero => ?_, fun n => ?_, s.grantable_of_dueGrant_none hgrant, hstep.trans (congrArg _ s.advance_eq)⟩
    · have hno := List.find?_eq_none.1 (Option.map_eq_none_iff.1 hlock) l hl
      simp [hzero] at hno
    · obtain ⟨hperiod, hpulse, hdelay⟩ := (s.lane n).dueTimer_eq_none n (findSome?_laneList_eq_none _ htimer n)
      exact ⟨hperiod, hpulse, findSome?_laneList_eq_none _ hlink n, hdelay⟩

end Sys2Proof.Machine
end

section
/-! PROOF. The arbiter (R136 to R140): the choice among the bridge claims that wait, and what is granted at a free port. -/

namespace Sys2Proof.Machine

/-! ### The choice in a ring -/

/-- The first element of a list that meets a test stands before every other one that does. -/
theorem idxOf_le_of_find? {α : Type} [DecidableEq α] (p : α → Bool) (l : List α) (a b : α) (h : l.find? p = some a) (hb : p b = true) :
    l.idxOf a ≤ l.idxOf b := by
  obtain ⟨-, before, after, rfl, hbefore⟩ := List.find?_eq_some_iff_append.1 h
  have hnot : b ∉ before := fun hmem => by simpa [hb] using hbefore b hmem
  calc (before ++ a :: after).idxOf a ≤ before.length := by
        rw [List.idxOf_append]
        split
        case isTrue hmem => exact (List.idxOf_lt_length_of_mem hmem).le
        case isFalse => simp
    _ ≤ (before ++ a :: after).idxOf b := by
        rw [List.idxOf_append, if_neg hnot]
        exact Nat.le_add_left _ _

/-- A ring as it is gone round from a pointer (R138). -/
def ringFrom (p : Nat) (ring : List Source) : List Source := ring.drop p ++ ring.take p

theorem mem_ringFrom (p : Nat) (ring : List Source) (src : Source) : src ∈ ringFrom p ring ↔ src ∈ ring := by
  rw [ringFrom, List.mem_append, or_comm, ← List.mem_append, List.take_append_drop]

theorem State.firstFrom_eq (s : State) (p : Nat) (ring : List Source) : s.firstFrom p ring = (ringFrom p ring).find? s.claims := rfl

theorem State.mem_of_firstFrom (s : State) (p : Nat) (ring : List Source) (src : Source) (h : s.firstFrom p ring = some src) :
    src ∈ ring := (mem_ringFrom p ring src).1 (List.mem_of_find?_eq_some h)

theorem State.firstFrom_eq_none (s : State) (p : Nat) (ring : List Source) (h : s.firstFrom p ring = none) (src : Source)
    (hm : src ∈ ring) : s.claims src = false := by
  rw [Bool.eq_false_iff]
  exact List.find?_eq_none.1 h src ((mem_ringFrom p ring src).2 hm)

/-! ### Rings and classes -/

theorem mem_commitRing_iff (src : Source) : src ∈ commitRing ↔ src.classNumber = 1 := by
  cases src with
  | commit n | drain n | capture n | fetch n => revert n; decide
  | table | status => decide

theorem mem_captureRing_iff (src : Source) : src ∈ captureRing ↔ src.classNumber = 2 := by
  cases src with
  | commit n | drain n | capture n | fetch n => revert n; decide
  | table | status => decide

theorem mem_fetchRing_iff (src : Source) : src ∈ fetchRing ↔ src.classNumber = 3 := by
  cases src with
  | commit n | drain n | capture n | fetch n => revert n; decide
  | table | status => decide

theorem mem_tableRing_iff (src : Source) : src ∈ [Source.table] ↔ src.classNumber = 4 := by
  cases src with
  | commit n | drain n | capture n | fetch n => revert n; decide
  | table | status => decide

theorem mem_statusRing_iff (src : Source) : src ∈ [Source.status] ↔ src.classNumber = 5 := by
  cases src with
  | commit n | drain n | capture n | fetch n => revert n; decide
  | table | status => decide

theorem Source.classNumber_range (src : Source) : 1 ≤ src.classNumber ∧ src.classNumber ≤ 5 := by
  cases src <;> simp [Source.classNumber]

/-- The turn of a source is its place in its ring gone round from the pointer (R138). -/
theorem turn_commit : ∀ (p : Fin 8) (n : Fin 4), (ringFrom p.val commitRing).idxOf (.commit n) = (2 * n.val + 8 - p.val) % 8 := by
  decide

theorem turn_drain : ∀ (p : Fin 8) (n : Fin 4), (ringFrom p.val commitRing).idxOf (.drain n) = (2 * n.val + 9 - p.val) % 8 := by
  decide

theorem turn_capture : ∀ (p n : Fin 4), (ringFrom p.val captureRing).idxOf (.capture n) = (n.val + 4 - p.val) % 4 := by
  decide

theorem turn_fetch : ∀ (p n : Fin 4), (ringFrom p.val fetchRing).idxOf (.fetch n) = (n.val + 4 - p.val) % 4 := by
  decide

theorem State.turn_commitRing (s : State) (src : Source) (h : src ∈ commitRing) :
    s.turn src = (ringFrom s.arbiter.commitPtr.val commitRing).idxOf src := by
  rw [mem_commitRing_iff] at h
  cases src with
  | commit n => exact (turn_commit _ n).symm
  | drain n => exact (turn_drain _ n).symm
  | capture n | fetch n | table | status => cases h

theorem State.turn_captureRing (s : State) (src : Source) (h : src ∈ captureRing) :
    s.turn src = (ringFrom s.arbiter.capturePtr.val captureRing).idxOf src := by
  rw [mem_captureRing_iff] at h
  cases src with
  | capture n => exact (turn_capture _ n).symm
  | commit n | drain n | fetch n | table | status => cases h

theorem State.turn_fetchRing (s : State) (src : Source) (h : src ∈ fetchRing) :
    s.turn src = (ringFrom s.arbiter.fetchPtr.val fetchRing).idxOf src := by
  rw [mem_fetchRing_iff] at h
  cases src with
  | fetch n => exact (turn_fetch _ n).symm
  | commit n | drain n | capture n | table | status => cases h

theorem State.turn_last (s : State) (src : Source) (h : 4 ≤ src.classNumber) : s.turn src = 0 := by
  cases src with
  | table | status => rfl
  | commit n | drain n | capture n | fetch n => exact absurd h (by simp [Source.classNumber])

/-! ### The choice -/

/-- No claim of a class below `c` waits, and the chosen one is the first of class `c` (R137, R138). -/
theorem State.bridgeChoice_cases (s : State) (src : Source) (h : s.bridgeChoice = some src) :
    (∀ other : Source, s.claims other = true → src.classNumber ≤ other.classNumber)
    ∧ ∀ other : Source, s.claims other = true → other.classNumber = src.classNumber → s.turn src ≤ s.turn other := by
  have none_of : ∀ {p : Nat} {ring : List Source} {c : Nat}, (∀ x, x ∈ ring ↔ x.classNumber = c) → s.firstFrom p ring = none →
      ∀ other, s.claims other = true → other.classNumber ≠ c := fun hring hnone other hother hc => by
    rw [s.firstFrom_eq_none _ _ hnone other ((hring other).2 hc)] at hother
    cases hother
  have first_of : ∀ {p : Nat} {ring : List Source}, (∀ x ∈ ring, s.turn x = (ringFrom p ring).idxOf x) → s.firstFrom p ring = some src →
      ∀ other, s.claims other = true → other ∈ ring → s.turn src ≤ s.turn other := fun hturn hfirst other hother hmem => by
    rw [hturn src (s.mem_of_firstFrom _ _ _ hfirst), hturn other hmem]
    exact idxOf_le_of_find? s.claims _ src other hfirst hother
  have range := Source.classNumber_range
  unfold State.bridgeChoice at h
  simp only [Option.or_eq_some_iff] at h
  obtain h1 | ⟨n1, h2 | ⟨n2, h3 | ⟨n3, h4 | ⟨n4, h5⟩⟩⟩⟩ := h
  · have hc := (mem_commitRing_iff src).1 (s.mem_of_firstFrom _ _ _ h1)
    exact ⟨fun other _ => by rw [hc]; exact (range other).1,
      fun other ho he => first_of s.turn_commitRing h1 other ho ((mem_commitRing_iff other).2 (he.trans hc))⟩
  · have hc := (mem_captureRing_iff src).1 (s.mem_of_firstFrom _ _ _ h2)
    have no1 := none_of mem_commitRing_iff n1
    refine ⟨fun other ho => ?_,
      fun other ho he => first_of s.turn_captureRing h2 other ho ((mem_captureRing_iff other).2 (he.trans hc))⟩
    have := range other; have := no1 other ho; omega
  · have hc := (mem_fetchRing_iff src).1 (s.mem_of_firstFrom _ _ _ h3)
    have no1 := none_of mem_commitRing_iff n1
    have no2 := none_of mem_captureRing_iff n2
    refine ⟨fun other ho => ?_,
      fun other ho he => first_of s.turn_fetchRing h3 other ho ((mem_fetchRing_iff other).2 (he.trans hc))⟩
    have := range other; have := no1 other ho; have := no2 other ho; omega
  · have hc := (mem_tableRing_iff src).1 (s.mem_of_firstFrom _ _ _ h4)
    have no1 := none_of mem_commitRing_iff n1
    have no2 := none_of mem_captureRing_iff n2
    have no3 := none_of mem_fetchRing_iff n3
    refine ⟨fun other ho => ?_, fun other _ _ => by rw [s.turn_last src (by omega)]; exact Nat.zero_le _⟩
    have := range other; have := no1 other ho; have := no2 other ho; have := no3 other ho; omega
  · have hc := (mem_statusRing_iff src).1 (s.mem_of_firstFrom _ _ _ h5)
    have no1 := none_of mem_commitRing_iff n1
    have no2 := none_of mem_captureRing_iff n2
    have no3 := none_of mem_fetchRing_iff n3
    have no4 := none_of mem_tableRing_iff n4
    refine ⟨fun other ho => ?_, fun other _ _ => by rw [s.turn_last src (by omega)]; exact Nat.zero_le _⟩
    have := range other; have := no1 other ho; have := no2 other ho; have := no3 other ho; have := no4 other ho; omega

/-- A claim waits exactly when a source has one. -/
theorem State.claimWaiting_iff (s : State) : s.claimWaiting = true ↔ ∃ src : Source, s.claims src = true := by
  refine ⟨s.claimWaiting_of_claims, fun ⟨src, hsrc⟩ => ?_⟩
  rw [State.claimWaiting, Option.isSome_iff_ne_none]
  intro hnone
  simp only [State.bridgeChoice, Option.or_eq_none_iff] at hnone
  obtain ⟨n1, n2, n3, n4, n5⟩ := hnone
  have hfalse : s.claims src = false := by
    have hrange := Source.classNumber_range src
    by_cases c1 : src.classNumber = 1
    · exact s.firstFrom_eq_none _ _ n1 src ((mem_commitRing_iff src).2 c1)
    by_cases c2 : src.classNumber = 2
    · exact s.firstFrom_eq_none _ _ n2 src ((mem_captureRing_iff src).2 c2)
    by_cases c3 : src.classNumber = 3
    · exact s.firstFrom_eq_none _ _ n3 src ((mem_fetchRing_iff src).2 c3)
    by_cases c4 : src.classNumber = 4
    · exact s.firstFrom_eq_none _ _ n4 src ((mem_tableRing_iff src).2 c4)
    · exact s.firstFrom_eq_none _ _ n5 src ((mem_statusRing_iff src).2 (by omega))
  rw [hfalse] at hsrc
  cases hsrc

/-! ### The claims one by one -/

/-- At a free port of a running part a source claims by what it has in hand alone (R136). -/
theorem State.claims_at_free_port (s : State) (hphase : s.phase = .running) (hport : s.port = none) :
    (∀ n : Fin 4, (s.claims (.commit n) = true ↔ ∃ e, (s.lane n).work = .commitClaim e)
      ∧ (s.claims (.drain n) = true ↔ s.drains.get n = true)
      ∧ (s.claims (.capture n) = true ↔ (s.lane n).work = .captureClaim)
      ∧ (s.claims (.fetch n) = true ↔ (s.lane n).work = .fetchClaim))
    ∧ (s.claims .table = true ↔
        ∃ staging, s.engine = .executing (.loadSettings staging) ∨ s.engine = .executing (.loadWindows staging))
    ∧ (s.claims .status = true ↔ s.statusChoice ≠ none) := by
  refine ⟨fun n => ⟨?commit, ?drain, ?capture, ?fetch⟩, ?table, ?status⟩
  case commit =>
    simp only [State.claims, hphase, hport, Option.any_none, beq_self_eq_true, Bool.not_false, Bool.and_true, Bool.true_and]
    split
    case h_1 e he => exact ⟨fun _ => ⟨e, he⟩, fun _ => rfl⟩
    case h_2 hno => exact ⟨nofun, fun ⟨e, he⟩ => absurd he (hno e)⟩
  case drain => simp [State.claims, hphase, hport]
  case capture => simp [State.claims, hphase, hport]
  case fetch => simp [State.claims, hphase, hport]
  case table =>
    simp only [State.claims, hphase, hport, Option.any_none, beq_self_eq_true, Bool.not_false, Bool.and_true, Bool.true_and]
    unfold State.tableClaim
    split
    case h_1 q he => exact ⟨fun _ => ⟨q, Or.inl he⟩, fun _ => rfl⟩
    case h_2 q he => exact ⟨fun _ => ⟨q, Or.inr he⟩, fun _ => rfl⟩
    case h_3 hno1 hno2 => exact ⟨nofun, fun ⟨q, hq⟩ => hq.elim (fun h => absurd h (hno1 q)) (fun h => absurd h (hno2 q))⟩
  case status => simp [State.claims, hphase, hport, Option.isSome_iff_ne_none]

/-! ### The status writer's choice -/

/-- Every index of a status word is looked at, from whatever position (R172). -/
theorem mem_sweepOrder (sweep i : Nat) : i ∈ sweepOrder sweep ↔ i < 41 := by
  simp only [sweepOrder, statusWords, List.mem_map, List.mem_range]
  constructor
  · rintro ⟨j, _, rfl⟩
    exact Nat.mod_lt _ (by decide)
  · intro hi
    refine ⟨(i + 41 - sweep % 41) % 41, Nat.mod_lt _ (by decide), ?_⟩
    omega

theorem State.statusChoice_eq_none_iff (s : State) : s.statusChoice = none ↔ ∀ i, i < 41 → s.stale i = false := by
  unfold State.statusChoice
  split
  case isTrue h => exact ⟨nofun, fun hall => absurd (hall causeIndex (by decide)) (by rw [h]; decide)⟩
  case isFalse => simp only [List.find?_eq_none, mem_sweepOrder, Bool.not_eq_true]

theorem State.statusChoice_ne_none_iff (s : State) : s.statusChoice ≠ none ↔ ∃ i, i < 41 ∧ s.stale i = true := by
  simp only [Ne, State.statusChoice_eq_none_iff, not_forall, Bool.not_eq_false, exists_prop]

/-! ### What is granted -/

theorem State.bridgeChoice_eq_none (s : State) (h : s.claimWaiting = false) : s.bridgeChoice = none := by
  rwa [State.claimWaiting, Option.isSome_eq_false_iff, Option.isNone_iff_eq_none] at h

theorem State.fairness_countAccess (s : State) :
    s.countAccess.arbiter.fairness = if s.claimWaiting then s.arbiter.fairness + 1 else 0 := rfl

/-- What the arbiter grants at a free port, by the claims, the waiting access and the fairness count (R140). -/
theorem State.grants_at_free_port (s : State) (hp : s.port = none) :
    s.accessGrantable = (!s.claimWaiting || decide (s.arbiter.fairness < 4))
    ∧ s.grantable = if s.upstream.isNone || decide (4 ≤ s.arbiter.fairness) then s.bridgeChoice else none := by
  simp only [State.accessGrantable, State.grantable, hp, Option.isNone_none, Bool.true_and]
  exact ⟨rfl, rfl⟩

/-- A burst on the port leaves nothing to grant (R139). -/
theorem State.grants_at_held_port (s : State) (hp : s.port ≠ none) : s.accessGrantable = false ∧ s.grantable = none := by
  have hsome : s.port.isNone = false := by rwa [Bool.eq_false_iff, Ne, Option.isNone_iff_eq_none]
  simp only [State.accessGrantable, State.grantable, hsome, Bool.false_and]
  exact ⟨trivial, rfl⟩

/-- A step fetch or a status write on the port has ended by the next grant row (log entry 7). -/
theorem State.atGrant_free_port (s : State) (b : Burst) (hp : s.port = some b) (hb : b.user.endsItself = true) :
    s.atGrant = ({ s with port := none } : State).atGrant := by
  rw [s.atGrant_ended b hp hb, State.atGrant_free _ rfl]

/-- Settles O27: the grants by the port and the claims, then the choice in the rings, the books of a grant, and the port that a
grant row finds. -/
theorem arbiterRule : Obligations.ArbiterRule := by
  intro s
  refine ⟨s.grants_at_held_port, fun hp hc => ?noClaim, fun hp hc hu => ?noAccess, fun hp hc hfair => ?fair,
    fun hp hc hfair => ?unfair, s.claimWaiting_iff, s.claims_in_reset, fun hrun hp => ?claims, fun src hsrc => ?choice,
    fun src => Arbiter.served_fairness s.arbiter src, fun n => ?pointers, fun b hb huser => ?ended⟩
  case noClaim =>
    obtain ⟨haccess, hgrant⟩ := s.grants_at_free_port hp
    rw [haccess, hgrant, s.fairness_countAccess, hc, s.bridgeChoice_eq_none hc, ite_self]
    exact ⟨rfl, rfl, rfl⟩
  case noAccess => rw [(s.grants_at_free_port hp).2, hu, Option.isNone_none, Bool.true_or, if_pos rfl]
  case fair =>
    obtain ⟨haccess, hgrant⟩ := s.grants_at_free_port hp
    refine ⟨?_, by rw [s.fairness_countAccess, if_pos hc], fun hu => ?_⟩
    · rw [haccess, decide_eq_true (by omega), Bool.or_true]
    · rw [hgrant, decide_eq_false (by omega), Bool.or_false, if_neg (by rwa [Option.isNone_iff_eq_none])]
  case unfair =>
    obtain ⟨haccess, hgrant⟩ := s.grants_at_free_port hp
    rw [haccess, hgrant, hc, decide_eq_false (by omega), decide_eq_true hfair, Bool.or_true, if_pos rfl]
    exact ⟨rfl, rfl⟩
  case claims =>
    obtain ⟨hlanes, htable, hstatus⟩ := s.claims_at_free_port hrun hp
    exact ⟨hlanes, htable, hstatus.trans s.statusChoice_ne_none_iff⟩
  case choice =>
    obtain ⟨hclass, hturn⟩ := s.bridgeChoice_cases src hsrc
    refine ⟨s.claims_of_bridgeChoice src hsrc, fun other hother => ?_⟩
    rcases (hclass other hother).lt_or_eq with hlt | heq
    · exact Or.inl hlt
    · exact Or.inr ⟨heq, hturn other hother heq.symm⟩
  case pointers =>
    have next : ∀ n : Fin 4, (n + 1).val = (n.val + 1) % 4 := by decide
    exact ⟨rfl, rfl, next n, next n⟩
  case ended =>
    have hends : b.user.endsItself = true := by
      rcases huser with h | ⟨n, h⟩ <;> rw [h] <;> rfl
    have hgrant := s.atGrant_free_port b hb hends
    refine ⟨?_, ?_, ?_, ?_, ?_, ?_⟩
    · exact congrArg (fun t : State => Host.Outcome.next t.stepFetchGrant.settle) hgrant
    · exact congrArg (fun t : State => Host.Outcome.next t.captureGrant.settle) hgrant
    · exact congrArg (fun t : State => Host.Outcome.next t.commitGrant.settle) hgrant
    · exact congrArg (fun t : State => Host.Outcome.next t.drainGrant.settle) hgrant
    · exact congrArg (fun t : State => Host.Outcome.next t.tableReadGrant.settle) hgrant
    · exact congrArg (fun t : State => Host.Outcome.next t.statusWriteGrant.settle) hgrant

end Sys2Proof.Machine
end

section
/-! PROOF. The checks of a step record (R83 to R86) and how a fetched step is carried out, kind by kind (R80 to R82, R89, R93,
R97 to R103). -/

namespace Sys2Proof.Machine

/-! ### The checks of R83 and R84, kind by kind -/

section DecodeByKind

variable (q : Quad) (mode : StartMode)

theorem stepZeroBitsOk_iff : stepZeroBitsOk q = true ↔ q.w0.extractLsb' 9 3 = 0 ∧ q.w0.extractLsb' 6 2 = 0 := by
  simp only [stepZeroBitsOk, Bool.and_eq_true, beq_iff_eq]

theorem selectionZerosOk_iff :
    selectionZerosOk q = true ↔ q.w1.extractLsb' 8 4 = 0 ∧ q.w2.extractLsb' 8 8 = 0 ∧ q.w3 = 0 := by
  simp only [selectionZerosOk, Bool.and_eq_true, beq_iff_eq, and_assoc]

theorem plainZerosOk_iff : plainZerosOk q = true ↔ stepNode q = 0 ∧ q.w1 = 0 ∧ q.w2 = 0 := by
  simp only [plainZerosOk, Bool.and_eq_true, beq_iff_eq, and_assoc]

theorem stepKind_eq (k : BitVec 4) (h : q.w0.extractLsb' 12 4 = k) : stepKind q = k.toNat := by rw [stepKind, h]

theorem decodeStep_zero_bits (h : stepZeroBitsOk q = false) : decodeStep q mode = none := by
  unfold decodeStep
  rw [h]
  rfl

/-- Kinds 0 and 8 to 15 are no steps. -/
theorem decodeStep_no_kind (h : stepKind q = 0 ∨ 8 ≤ stepKind q) : decodeStep q mode = none := by
  unfold decodeStep
  split
  · rfl
  · split
    case h_8 => rfl
    all_goals omega

variable (hz : stepZeroBitsOk q = true)
include hz

theorem decodeStep_send (hk : stepKind q = 1) :
    decodeStep q mode = if selectionZerosOk q then some (.send (stepOption q) (selectionOf q)) else none := by
  unfold decodeStep
  rw [hz, hk]
  rfl

theorem decodeStep_fetch (hk : stepKind q = 2) : decodeStep q mode =
    if selectionZerosOk q && stepNode q != 63 then some (.fetch (stepOption q) (selectionOf q)) else none := by
  unfold decodeStep
  rw [hz, hk]
  rfl

theorem decodeStep_inline (hk : stepKind q = 3) : decodeStep q mode =
    if q.w1 = 0 ∧ (stepOption q = true ∨ q.w3 = 0)
    then some (.inline (stepNode q) (if stepOption q then [q.w2, q.w3] else [q.w2])) else none := by
  unfold decodeStep
  rw [hz, hk]
  by_cases h1 : q.w1 = 0
  · cases stepOption q <;> simp [h1]
  · exact (if_pos (bne_iff_ne.2 h1)).trans (if_neg fun h => h1 h.1).symm

theorem decodeStep_pulse (hk : stepKind q = 4) :
    decodeStep q mode = if plainZerosOk q && q.w3 == 0 then some (.pulse (stepOption q)) else none := by
  unfold decodeStep
  rw [hz, hk]
  rfl

theorem decodeStep_wait (hk : stepKind q = 5) (ho : stepOption q = false) :
    decodeStep q mode = if plainZerosOk q && q.w3 != 0 then some (.wait q.w3.toNat) else none := by
  unfold decodeStep
  rw [hz, hk]
  cases hp : plainZerosOk q <;> simp [ho]

theorem decodeStep_waitTrigger (hk : stepKind q = 5) (ho : stepOption q = true) :
    decodeStep q mode = if plainZerosOk q && q.w3 == 0 && mode != .trigger then some .waitTrigger else none := by
  unfold decodeStep
  rw [hz, hk]
  cases hp : plainZerosOk q <;> simp [ho]

theorem decodeStep_jump (hk : stepKind q = 6) (target : Fin 64) (ht : q.w3.toNat = target.val) :
    decodeStep q mode = if !stepOption q && plainZerosOk q then some (.jump target) else none := by
  have hlt : q.w3.toNat < 64 := ht ▸ target.isLt
  have htarget : (⟨q.w3.toNat, hlt⟩ : Fin 64) = target := Fin.ext ht
  unfold decodeStep
  rw [hz, hk]
  cases stepOption q <;> cases plainZerosOk q <;> simp [hlt, htarget]

theorem decodeStep_jump_beyond (hk : stepKind q = 6) (ht : 64 ≤ q.w3.toNat) : decodeStep q mode = none := by
  have hge : ¬ q.w3.toNat < 64 := by omega
  unfold decodeStep
  rw [hz, hk]
  simp [hge]

theorem decodeStep_finish (hk : stepKind q = 7) :
    decodeStep q mode = if !stepOption q && plainZerosOk q && q.w3 == 0 then some .finish else none := by
  unfold decodeStep
  rw [hz, hk]
  rfl

end DecodeByKind

/-! ### The checks of R85 -/

theorem State.checkedStep_none (s : State) (n : Fin 4) (q : Quad) (h : decodeStep q (s.lane n).startMode = none) :
    s.checkedStep n q = none := by
  unfold State.checkedStep
  rw [h]

theorem State.checkedStep_send (s : State) (n : Fin 4) (q : Quad) (c : Bool) (sel : Selection)
    (h : decodeStep q (s.lane n).startMode = some (.send c sel)) : s.checkedStep n q =
      if selectionFits (s.window sel.window) n .mirror sel && (!c || (s.window sel.window).option)
      then some (.send c sel) else none := by
  unfold State.checkedStep
  rw [h]

theorem State.checkedStep_fetch (s : State) (n : Fin 4) (q : Quad) (x : Bool) (sel : Selection)
    (h : decodeStep q (s.lane n).startMode = some (.fetch x sel)) : s.checkedStep n q =
      if selectionFits (s.window sel.window) n .feed sel then some (.fetch x sel) else none := by
  unfold State.checkedStep
  rw [h]

/-- A step that names no window. -/
def Step.plain : Step → Bool
  | .send _ _ | .fetch _ _ => false
  | .inline _ _ | .pulse _ | .wait _ | .waitTrigger | .jump _ | .finish => true

/-- The checks of R85 leave a step that names no window as R83 and R84 found it. -/
theorem State.checkedStep_plain (s : State) (n : Fin 4) (q : Quad) (step : Step) (hstep : step.plain = true) (p : Prop) [Decidable p]
    (h : decodeStep q (s.lane n).startMode = if p then some step else none) :
    s.checkedStep n q = if p then some step else none := by
  by_cases hp : p
  · rw [if_pos hp] at h ⊢
    unfold State.checkedStep
    rw [h]
    cases step <;> first | rfl | cases hstep
  · rw [if_neg hp] at h ⊢
    exact s.checkedStep_none n q h

/-! ### The grant of a fetch -/

theorem State.exec_stepFetchGrant (s : State) (n : Fin 4) (q : Quad) (step : Step) (hg : s.grantable = some (.fetch n))
    (hq : Memory.readQuad s.mem (s.lane n).stepAddr = q) (hstep : s.checkedStep n q = some step) :
    exec .stepFetchGrant s = .next ((((s.countGrant (.fetch n)).setLane n
      { s.lane n with step := some q, entry := none, work := .none }).carryOut n step).holdPort (.fetch n) 4 []).settle := by
  have hexec : exec .stepFetchGrant s = .next s.atGrant.stepFetchGrant.settle := rfl
  rw [hexec, s.atGrant_grantable _ hg, s.stepFetchGrant_eq n q hg hq, hstep]

/-- A fetch that leaves its lane as far from rest as it was finishes no long command. -/
theorem State.settle_fetched (s : State) (n : Fin 4) (l : Lane) (hf : s.finishes = false) (hl : l.atRest = (s.lane n).atRest) :
    (((s.countGrant (.fetch n)).setLane n l).holdPort (.fetch n) 4 []).settle =
      { s.countGrant (.fetch n) with lanes := s.lanes.set n l, port := some (fetchBurst n) } :=
  State.settle_same s _ hf rfl ((s.countGrant (.fetch n)).atRest_setLane n l hl) rfl rfl

/-- The state in which a step ends that its fetch has carried out. -/
theorem State.endStep_fetched (s : State) (n : Fin 4) (l : Lane) :
    (((s.countGrant (.fetch n)).setLane n l).endStep n).holdPort (.fetch n) 4 [] =
      ({ s.countGrant (.fetch n) with lanes := s.lanes.set n l, port := some (fetchBurst n) } : State).endStep n :=
  State.endStep_holdPort _ n _ _ _

/-! ### StepChecks -/

/-- A lane that faults at the step it has fetched (R86). -/
theorem State.exec_badStep (s : State) (n : Fin 4) (q : Quad) (hg : s.grantable = some (.fetch n))
    (hq : Memory.readQuad s.mem (s.lane n).stepAddr = q) (hstep : s.checkedStep n q = none) :
    exec .stepFetchGrant s = .next ({ s.countGrant (.fetch n) with
        lanes := s.lanes.set n { (s.lane n).restAs .faulted with
          step := some q, entry := none, lastError := { code := .badStep, step := (s.lane n).stepIndex, node := 0xFF } }
        port := some (fetchBurst n), events := s.events ||| BitVec.twoPow 19 n.val } : State).settle := by
  have hexec : exec .stepFetchGrant s = .next s.atGrant.stepFetchGrant.settle := rfl
  rw [hexec, s.atGrant_grantable _ hg, s.stepFetchGrant_eq n q hg hq, hstep]
  simp only [State.structuralFault_eq, State.lane_setLane_same, State.setLane_lanes, Four.set_set]
  rfl

/-- Settles O28, kind by kind; a record that fails is a structural fault. -/
theorem stepChecks : Obligations.StepChecks := by
  intro n s
  refine ⟨fun q w first count node option hw hfirst hcount hnode hoption => ?checks, fun hg hbad => s.exec_badStep n _ hg rfl hbad⟩
  obtain rfl : w = (selectionOf q).window := Fin.ext hw
  subst hfirst hcount hnode hoption
  have hkind : ∀ k, q.w0.extractLsb' 12 4 = k → stepKind q = k.toNat := stepKind_eq q
  refine ⟨fun hfail => ?fails, fun h9 h6 => ?kinds⟩
  case fails =>
    refine s.checkedStep_none n q ?_
    rcases hfail with h | h | h | h
    · exact decodeStep_zero_bits q _ (by rw [Bool.eq_false_iff, Ne, stepZeroBitsOk_iff]; exact fun hok => h hok.1)
    · exact decodeStep_zero_bits q _ (by rw [Bool.eq_false_iff, Ne, stepZeroBitsOk_iff]; exact fun hok => h hok.2)
    · exact decodeStep_no_kind q _ (Or.inl (hkind _ h))
    · exact decodeStep_no_kind q _ (Or.inr h)
  have hz : stepZeroBitsOk q = true := (stepZeroBitsOk_iff q).2 ⟨h9, h6⟩
  refine ⟨fun hk => ?send, fun hk => ?fetch, fun hk => ?inline, fun hk => ?pulse, fun hk ho => ?wait, fun hk ho => ?waitTrigger,
    fun target hk ht => ?jump, fun hk ht => ?beyond, fun hk => ?finish⟩
  case send =>
    have hdecode := decodeStep_send q (s.lane n).startMode hz (hkind _ hk)
    by_cases hok : selectionZerosOk q = true
    · rw [if_pos hok] at hdecode
      rw [s.checkedStep_send n q _ _ hdecode]
      refine if_congr ?_ rfl rfl
      rw [Bool.and_eq_true, Tracked.selectionFits_iff, Bool.or_eq_true, Bool.not_eq_true']
      obtain ⟨z1, z2, z3⟩ := (selectionZerosOk_iff q).1 hok
      simp only [z1, z2, z3, true_and, and_assoc]
      rfl
    · rw [if_neg hok] at hdecode
      rw [s.checkedStep_none n q hdecode, if_neg]
      exact fun ⟨z1, z2, z3, _⟩ => hok ((selectionZerosOk_iff q).2 ⟨z1, z2, z3⟩)
  case fetch =>
    have hdecode := decodeStep_fetch q (s.lane n).startMode hz (hkind _ hk)
    by_cases hok : (selectionZerosOk q && stepNode q != 63) = true
    · rw [if_pos hok] at hdecode
      rw [s.checkedStep_fetch n q _ _ hdecode]
      refine if_congr ?_ rfl rfl
      rw [Bool.and_eq_true, bne_iff_ne] at hok
      obtain ⟨hzeros, hnode⟩ := hok
      obtain ⟨z1, z2, z3⟩ := (selectionZerosOk_iff q).1 hzeros
      have hnode' : (selectionOf q).node ≠ 63 := hnode
      rw [Tracked.selectionFits_iff]
      simp only [z1, z2, z3, true_and, hnode', false_or]
      exact ⟨fun ⟨a, b, c, d, e⟩ => ⟨a, b, c, d, hnode, e⟩, fun ⟨a, b, c, d, _, e⟩ => ⟨a, b, c, d, e⟩⟩
    · rw [if_neg hok] at hdecode
      rw [s.checkedStep_none n q hdecode, if_neg]
      rintro ⟨z1, z2, z3, _, _, _, _, hnode, _⟩
      exact hok (by rw [Bool.and_eq_true, selectionZerosOk_iff, bne_iff_ne]; exact ⟨⟨z1, z2, z3⟩, hnode⟩)
  case inline =>
    exact s.checkedStep_plain n q (.inline _ _) rfl _ (decodeStep_inline q _ hz (hkind _ hk))
  case pulse =>
    refine s.checkedStep_plain n q (.pulse _) rfl _ ((decodeStep_pulse q _ hz (hkind _ hk)).trans (if_congr ?_ rfl rfl))
    rw [Bool.and_eq_true, plainZerosOk_iff, beq_iff_eq, and_assoc, and_assoc]
    rfl
  case wait =>
    refine s.checkedStep_plain n q (.wait _) rfl _ ((decodeStep_wait q _ hz (hkind _ hk) ho).trans (if_congr ?_ rfl rfl))
    rw [Bool.and_eq_true, plainZerosOk_iff, bne_iff_ne, and_assoc, and_assoc]
    rfl
  case waitTrigger =>
    refine s.checkedStep_plain n q .waitTrigger rfl _
      ((decodeStep_waitTrigger q _ hz (hkind _ hk) ho).trans (if_congr ?_ rfl rfl))
    rw [Bool.and_eq_true, Bool.and_eq_true, plainZerosOk_iff, beq_iff_eq, bne_iff_ne, and_assoc, and_assoc, and_assoc]
    rfl
  case jump =>
    refine s.checkedStep_plain n q (.jump target) rfl _
      ((decodeStep_jump q _ hz (hkind _ hk) target ht).trans (if_congr ?_ rfl rfl))
    rw [Bool.and_eq_true, plainZerosOk_iff, Bool.not_eq_true']
    rfl
  case beyond => exact s.checkedStep_none n q (decodeStep_jump_beyond q _ hz (hkind _ hk) ht)
  case finish =>
    refine s.checkedStep_plain n q .finish rfl _ ((decodeStep_finish q _ hz (hkind _ hk)).trans (if_congr ?_ rfl rfl))
    rw [Bool.and_eq_true, Bool.and_eq_true, plainZerosOk_iff, beq_iff_eq, Bool.not_eq_true', and_assoc, and_assoc, and_assoc]
    rfl

/-! ### INLINE, WAIT and PULSE -/

/-- Settles O29, kind by kind. -/
theorem inlineWaitAndPulseSteps : Obligations.InlineWaitAndPulseSteps := by
  intro n q l s hg hf hq hl
  have hrest : l.atRest = (s.lane n).atRest := by rw [hl]; rfl
  have hexec := fun step hstep => s.exec_stepFetchGrant n q step hg hq hstep
  rw [← hl] at hexec
  have hlane : ((s.countGrant (.fetch n)).setLane n l).lane n = l := State.lane_setLane_same _ n l
  refine ⟨fun node words hstep => ?inline, fun d hstep => ?wait, fun hstep hlatch => ?waits, fun hstep hlatch => ?goesOn,
    fun hstep => ?pulse, fun hstep => ?mark⟩
  case inline =>
    rw [hexec _ hstep]
    simp only [State.carryOut, State.requestCall, hlane, State.setLane_setLane]
    rw [s.settle_fetched n _ hf ((l.requestCall_atRest _).trans hrest)]
  case wait =>
    rw [hexec _ hstep]
    simp only [State.carryOut, hlane, State.setLane_setLane]
    rw [s.settle_fetched n { l with work := .delay, delayTimer := _ } hf hrest]
    rfl
  case waits =>
    rw [hexec _ hstep]
    simp only [State.carryOut, hlane, State.setLane_setLane, hlatch, Bool.false_eq_true, if_false]
    rw [s.settle_fetched n { l with work := .triggerWait, triggerLatch := _ } hf hrest]
  case goesOn =>
    rw [hexec _ hstep]
    simp only [State.carryOut, hlane, State.setLane_setLane, hlatch, if_true]
    rw [s.endStep_fetched]
  case pulse =>
    rw [hexec _ hstep]
    simp only [State.carryOut, hlane, State.setLane_setLane, Bool.false_eq_true, if_false]
    rw [s.endStep_fetched]
    rfl
  case mark =>
    rw [hexec _ hstep]
    simp only [State.carryOut, hlane, State.setLane_setLane, if_true]
    rw [State.endStep_holdPort, State.raise, Event.mark_bit]
    rfl

/-! ### SEND and FETCH -/

/-- A changed-only SEND step goes to the first member of the changed set from record k on; with a stop pending it looks at record
k alone (R19, R90, R92). -/
theorem State.takeSend_member (s : State) (n : Fin 4) (sel : Selection) (k i : Nat) (hk : k ≤ i) (hi : i < sel.first + sel.count)
    (hmem : i ∈ s.changedSet sel.window) (hfirst : ∀ j, k ≤ j → j < i → j ∉ s.changedSet sel.window)
    (hstop : (s.lane n).stopAtStepEnd = true → i = k) :
    s.takeSend n true sel k = s.setLane n { s.lane n with position := i, work := .captureClaim } := by
  have hfind : (List.range' k (if (s.lane n).stopAtStepEnd then 1 else sel.last + 1 - k)).find?
      (fun i => (s.changedSet sel.window).contains i) = some i := by
    rw [List.find?_range'_eq_some]
    refine ⟨by simpa using hmem, ?_, fun j hj hlt => by simpa using hfirst j hj hlt⟩
    rw [List.mem_range'_1]
    refine ⟨hk, ?_⟩
    split
    case isTrue h => have := hstop h; omega
    case isFalse => unfold Selection.last; omega
  unfold State.takeSend
  dsimp only
  rw [if_pos rfl, hfind]

/-- With no member left the step ends at its last record (R90). -/
theorem State.takeSend_no_member (s : State) (n : Fin 4) (sel : Selection) (k : Nat)
    (hnone : ∀ j, k ≤ j → j < sel.first + sel.count → (s.lane n).stopAtStepEnd = false ∨ j = k → j ∉ s.changedSet sel.window)
    (hk : k < sel.first + sel.count) :
    s.takeSend n true sel k = (s.setLane n { s.lane n with position := sel.first + sel.count - 1 }).endStep n := by
  have hfind : (List.range' k (if (s.lane n).stopAtStepEnd then 1 else sel.last + 1 - k)).find?
      (fun i => (s.changedSet sel.window).contains i) = none := by
    rw [List.find?_eq_none]
    intro j hj
    rw [List.mem_range'_1] at hj
    obtain ⟨hkj, hlt⟩ := hj
    have hnot : j ∉ s.changedSet sel.window := by
      split at hlt
      case isTrue h => exact hnone j hkj (by omega) (Or.inr (by omega))
      case isFalse h =>
        unfold Selection.last at hlt
        exact hnone j hkj (by omega) (Or.inl (Bool.eq_false_iff.2 h))
    simpa using hnot
  unfold State.takeSend
  dsimp only
  rw [if_pos rfl, hfind]
  rfl

/-- Without changed-only every record is taken (R90). -/
theorem State.takeSend_every (s : State) (n : Fin 4) (sel : Selection) (k : Nat) :
    s.takeSend n false sel k = s.setLane n { s.lane n with position := k, work := .captureClaim } := rfl

/-- A FETCH step takes record k: its GET call is requested (R93). -/
theorem State.takeFetch_eq (s : State) (n : Fin 4) (x : Bool) (sel : Selection) (k : Nat) : s.takeFetch n x sel k =
    s.setLane n (({ s.lane n with position := k, inbound := [] } : Lane).requestCall
      { verb := .get, node := sel.nodeOf k, words := [], requested := (s.lane n).getCount, exact := x }) := by
  unfold State.takeFetch State.requestCall
  dsimp only
  rw [State.lane_setLane_same, State.setLane_setLane]

theorem Selection.nodeOf_broadcast (sel : Selection) (k : Nat) (h : sel.node = 63) : sel.nodeOf k = 63 := if_pos h

theorem Selection.nodeOf_toNat (sel : Selection) (k : Nat) (hk : k < sel.first + sel.count) (h : sel.node ≠ 63)
    (hbound : sel.node.toNat + sel.count - 1 ≤ 62) : (sel.nodeOf k).toNat = sel.node.toNat + (k - sel.first) := by
  unfold Selection.nodeOf
  rw [if_neg h, BitVec.toNat_add, BitVec.toNat_ofNat]
  omega

/-- A SEND or FETCH step that has passed its checks selects at least one record. -/
theorem Selection.count_pos_of_checkedStep (s : State) (n : Fin 4) (q : Quad) (c : Bool) (sel : Selection)
    (h : s.checkedStep n q = some (.send c sel)) : 0 < sel.count := by
  have hdecode := Tracked.decodeStep_of_checkedStep q _ h
  unfold decodeStep at hdecode
  split at hdecode
  · cases hdecode
  · split at hdecode
    case h_1 =>
      split at hdecode <;> cases hdecode
      exact Nat.succ_pos _
    all_goals (repeat' split at hdecode) <;> cases hdecode

/-- Settles O30: the first record of a SEND or FETCH step, and the nodes of its records. -/
theorem sendAndFetchSteps : Obligations.SendAndFetchSteps := by
  refine ⟨fun n q sel l s hg hf hq hl => ?steps, fun sel k hk hlt => ⟨fun h => sel.nodeOf_broadcast k h, sel.nodeOf_toNat k hlt⟩⟩
  have hrest : l.atRest = (s.lane n).atRest := by rw [hl]; rfl
  have hexec := fun step hstep => s.exec_stepFetchGrant n q step hg hq hstep
  generalize hbase : (s.countGrant (.fetch n)).setLane n l = t
  have hlane : t.lane n = l := by rw [← hbase]; exact State.lane_setLane_same _ n l
  have hsend : ∀ c, ((s.countGrant (.fetch n)).setLane n { s.lane n with step := some q, entry := none, work := .none }).carryOut n
      (.send c sel) = t.takeSend n c sel sel.first := fun c => by
    simp only [State.carryOut, State.lane_setLane_same, State.setLane_setLane, ← hbase, hl]
    rfl
  have hfetch : ∀ x, ((s.countGrant (.fetch n)).setLane n { s.lane n with step := some q, entry := none, work := .none }).carryOut n
      (.fetch x sel) = t.takeFetch n x sel sel.first := fun x => by
    simp only [State.carryOut, State.lane_setLane_same, State.setLane_setLane, ← hbase, hl]
    rfl
  have hset : ∀ k, t.setLane n k = (s.countGrant (.fetch n)).setLane n k := fun k => by rw [← hbase, State.setLane_setLane]
  have hchanged : t.changedSet sel.window = s.changedSet sel.window := by rw [← hbase]; rfl
  refine ⟨fun hstep => ?every, fun k hstep hk hlt hmem hfirst hstop => ?member, fun hstep hnone => ?noMember,
    fun x hstep => ?fetch⟩
  case every =>
    rw [hexec _ hstep, hsend, t.takeSend_every, hlane, hset]
    exact congrArg _ (s.settle_fetched n { l with position := sel.first, work := .captureClaim } hf hrest)
  case member =>
    rw [hexec _ hstep, hsend, t.takeSend_member n sel sel.first k hk hlt (by rwa [hchanged]) (by rwa [hchanged])
      (by rwa [hlane]), hlane, hset]
    exact congrArg _ (s.settle_fetched n { l with position := k, work := .captureClaim } hf hrest)
  case noMember =>
    have hpos := Selection.count_pos_of_checkedStep s n q true sel hstep
    rw [hexec _ hstep, hsend, t.takeSend_no_member n sel sel.first (by rwa [hchanged, hlane]) (by omega), hlane, hset,
      s.endStep_fetched]
  case fetch =>
    have hcount : l.getCount = (s.window sel.window).size - 1 := by rw [hl]; rfl
    rw [hexec _ hstep, hfetch, t.takeFetch_eq, hlane, hset, hcount]
    exact congrArg _ (s.settle_fetched n _ hf ((Lane.requestCall_atRest _ _).trans hrest))

/-! ### The end of a step and JUMP -/

theorem State.nextStep_stops (s : State) (n : Fin 4) (i : Nat) (hs : (s.lane n).stopAtStepEnd = true) :
    s.nextStep n i = s.enterStopped n true := by
  unfold State.nextStep
  rw [if_pos hs]

/-- The record 6000h, 0, 0, i is JUMP to i in every start mode (R83, R84). -/
theorem decodeStep_jump_to (i : Fin 64) (mode : StartMode) :
    decodeStep { w0 := 0x6000, w1 := 0, w2 := 0, w3 := BitVec.ofNat 16 i.val } mode = some (.jump i) := by
  have hi : (BitVec.ofNat 16 i.val).toNat = i.val := by
    rw [BitVec.toNat_ofNat]
    exact Nat.mod_eq_of_lt (by omega)
  have hk : ((0x6000 : Word).extractLsb' 12 4).toNat = 6 := by decide
  have hz : ((0x6000 : Word).extractLsb' 9 3 == 0 && (0x6000 : Word).extractLsb' 6 2 == 0) = true := by decide
  have hplain : (!(0x6000 : Word).getLsbD 8 && ((0x6000 : Word).extractLsb' 0 6 == 0 && (0 : Word) == 0 && (0 : Word) == 0)) = true := by
    decide
  exact (decodeStep_jump { w0 := 0x6000, w1 := 0, w2 := 0, w3 := BitVec.ofNat 16 i.val } mode hz hk i hi).trans (if_pos hplain)

/-- Settles O31: the end of a step by the stop flag, the index and the budget, and the same for JUMP. -/
theorem nextStepResult : Obligations.NextStepResult := by
  refine ⟨fun n s => ⟨fun hstop => ?stops, fun hstop hi => s.endStep_runs_off n hi hstop, fun i hstop hi => ?goesOn⟩,
    fun n i q s hg hqi hq => ?jump⟩
  case stops => rw [s.endStep_stops n hstop, s.enterStopped_done n]
  case goesOn =>
    refine ⟨fun hbudget => ?_, fun hspent => s.endStep_spent n i hi hstop hspent⟩
    rw [s.endStep_eq n i hi hstop hbudget]
    rfl
  case jump =>
    have hstep : s.checkedStep n q = some (.jump i) := by
      unfold State.checkedStep
      rw [hqi, decodeStep_jump_to]
    rw [s.exec_stepFetchGrant n q _ hg hq hstep]
    generalize hbase : (s.countGrant (.fetch n)).setLane n { s.lane n with step := some q, entry := none, work := .none } = t
    have hlane : t.lane n = { s.lane n with step := some q, entry := none, work := .none } := by
      rw [← hbase]
      exact State.lane_setLane_same _ n _
    have hset : ∀ k, t.lanes.set n k = s.lanes.set n k := fun k => by
      rw [← hbase, State.setLane_lanes, Four.set_set]
      rfl
    refine ⟨fun hstop => ?_, fun hstop hbudget => ?_, fun hstop hspent => ?_⟩
    · simp only [State.carryOut]
      rw [t.nextStep_stops n _ (by rw [hlane]; exact hstop), t.enterStopped_done, hset, hlane, ← hbase]
      rfl
    · simp only [State.carryOut]
      rw [t.nextStep_eq n i (by rw [hlane]; exact hstop) (by rw [hlane]; exact hbudget), hlane, State.setLane, hset, ← hbase]
      rfl
    · simp only [State.carryOut]
      rw [t.nextStep_spent n i (by rw [hlane]; exact hstop) (by rw [hlane]; exact hspent), hset, hlane, ← hbase]
      rfl

end Sys2Proof.Machine
end

section
/-! PROOF. Captures, commits, drains and status writes: their grants, what the words of their bursts are, and their ends (R17,
R18, R40 to R49, R90, R94, R96, R172, R173); and when the long commands finish (R12, R151, R156, R157, R163). -/

namespace Sys2Proof.Machine

/-! ### The end of a burst -/

theorem State.endBurst_held (s : State) (b : Burst) (hp : s.port = some b) :
    s.endBurst = { s with mem := Memory.writeAll s.mem b.writes, port := none } := by
  unfold State.endBurst
  rw [hp]

/-! ### Capture -/

theorem Lane.selection_send (l : Lane) (c : Bool) (sel : Selection) (h : l.currentStep = some (.send c sel)) :
    l.selection = some sel := by
  unfold Lane.selection
  rw [h]

theorem Lane.selection_fetch (l : Lane) (x : Bool) (sel : Selection) (h : l.currentStep = some (.fetch x sel)) :
    l.selection = some sel := by
  unfold Lane.selection
  rw [h]

/-- Taking an index out of a set touches the changed sets alone. -/
theorem State.removeChanged_eq (s : State) (w : Fin 16) (k : Nat) :
    s.removeChanged w k = { s with changed := (s.removeChanged w k).changed } := by
  unfold State.removeChanged
  split <;> rfl

theorem State.mem_changedSet_removeChanged (s : State) (u w : Fin 16) (k j : Nat) : j ∈ (s.removeChanged w k).changedSet u ↔
    j ∈ s.changedSet u ∧ ¬ (u = w ∧ j = k ∧ (s.window u).tracked = true) := by
  rw [State.changedSet_removeChanged]
  split
  case isTrue h =>
    obtain ⟨rfl, htracked⟩ := h
    rw [mem_removeIndex]
    simp only [htracked, true_and, and_true]
  case isFalse h =>
    refine ⟨fun hmem => ⟨hmem, ?_⟩, fun hmem => hmem.1⟩
    rintro ⟨rfl, -, htracked⟩
    exact h ⟨rfl, htracked⟩

/-- Settles O33: the grant of a capture, and its end. -/
theorem captureResult : Obligations.CaptureResult := by
  intro n b sel s hstep
  have hsel := (s.lane n).selection_send b sel hstep
  refine ⟨fun hg hf => ?grant, fun len done hp hf hwork => ?ends⟩
  case grant =>
    have hexec : exec .captureGrant s = .next s.atGrant.captureGrant.settle := rfl
    have hgrant : s.captureGrant = (((s.countGrant (.capture n)).removeChanged sel.window (s.lane n).position).setLane n
        { s.lane n with work := .capturing, outbound := s.recordWords (s.window sel.window) (s.lane n).position }).holdPort
          (.capture n) (s.window sel.window).size [] := by
      have hsel' : ((s.countGrant (.capture n)).lane n).selection = some sel := hsel
      simp only [State.captureGrant, hg, hsel']
      rfl
    rw [hexec, s.atGrant_grantable _ hg, hgrant, State.removeChanged_eq]
    refine ⟨_, congrArg Host.Outcome.next (State.settle_same s _ hf rfl ((s.countGrant (.capture n)).atRest_setLane n
      { s.lane n with work := .capturing, outbound := _ } rfl) rfl rfl), rfl, fun w k => ?_⟩
    exact (s.countGrant (.capture n)).mem_changedSet_removeChanged w sel.window _ k
  case ends =>
    have hexec : exec .captureBurstEnd s = .next s.captureBurstEnd.settle := rfl
    have hend : s.captureBurstEnd = s.endBurst.requestCall n
        { verb := .put, node := sel.nodeOf (s.lane n).position, words := (s.lane n).outbound, requested := 0, exact := false } := by
      simp only [State.captureBurstEnd, hp, State.lane_endBurst, hwork, hsel]
    rw [hexec, hend, s.endBurst_held _ hp]
    exact congrArg _ (State.settle_same s _ hf rfl (s.atRest_setLane n _ (Lane.requestCall_atRest _ _)) rfl rfl)

/-! ### Commit -/

theorem State.exec_commitGrant (s : State) (n : Fin 4) (e : HoldEntry) (hg : s.grantable = some (.commit n))
    (hw : (s.lane n).work = .commitClaim e) : exec .commitGrant s = .next ((s.countGrant (.commit n)).decideCommit n e).settle := by
  have hexec : exec .commitGrant s = .next s.atGrant.commitGrant.settle := rfl
  have hgrant : s.commitGrant = (s.countGrant (.commit n)).decideCommit n e := by simp only [State.commitGrant, hg, hw]
  rw [hexec, s.atGrant_grantable _ hg, hgrant]

section CommitDecision

variable (s : State) (n : Fin 4) (e : HoldEntry)

/-- R41: the record is unlocked and the slot holds no entry for it. -/
theorem State.decideCommit_writes (hl : s.locked e.window e.record = false)
    (hs : slotHolds (s.slots.get n) e.window e.record = false) : s.decideCommit n e =
      (s.setLane n { s.lane n with work := .committing e }).holdPort (.commit n) (e.data.length + 1) (s.entryWrites e) := by
  simp only [State.decideCommit, hl, hs, Bool.false_eq_true, if_false]

/-- R43: the entry takes the place of the one in the slot. -/
theorem State.decideCommit_supersedes (hl : s.locked e.window e.record = false)
    (hs : slotHolds (s.slots.get n) e.window e.record = true) : s.decideCommit n e =
      ((s.dropSlot n).setLane n { s.lane n with work := .committing e.asReplacement }).holdPort (.commit n) (e.data.length + 1)
        (s.entryWrites e.asReplacement) := by
  simp only [State.decideCommit, hl, hs, Bool.false_eq_true, if_false, if_true]
  rfl

/-- R41: the record is locked and the slot is empty. -/
theorem State.decideCommit_fills (hl : s.locked e.window e.record = true) (hs : s.slots.get n = none) :
    s.decideCommit n e = (s.fillSlot n e).commitResolved n e := by
  simp only [State.decideCommit, hl, hs, if_true]

/-- R43: the record is locked and the slot holds an entry for it. -/
theorem State.decideCommit_replaces (hl : s.locked e.window e.record = true)
    (hs : slotHolds (s.slots.get n) e.window e.record = true) :
    s.decideCommit n e = (s.fillSlot n e.asReplacement).commitResolved n e := by
  cases hslot : s.slots.get n with
  | none => rw [hslot] at hs; cases hs
  | some f =>
    rw [hslot] at hs
    simp only [State.decideCommit, hl, hslot, hs, if_true]

/-- R45: the slot holds an entry for another record. -/
theorem State.decideCommit_holds (hl : s.locked e.window e.record = true) (hne : s.slots.get n ≠ none)
    (hs : slotHolds (s.slots.get n) e.window e.record = false) :
    s.decideCommit n e = s.setLane n { s.lane n with state := .holding, work := .heldBack e } := by
  cases hslot : s.slots.get n with
  | none => exact absurd hslot hne
  | some f =>
    rw [hslot] at hs
    simp only [State.decideCommit, hl, hslot, hs, Bool.false_eq_true, if_true, if_false]

end CommitDecision

/-- Settles O34, row by row of R41. -/
theorem commitDecision : Obligations.CommitDecision := by
  intro n e s hg hw
  rw [s.exec_commitGrant n e hg hw]
  refine ⟨fun hl hs => ?_, fun hl hs => ?_, fun hl hs => ?_, fun hl hs => ?_, fun hl hne hs => ?_⟩
  · rw [(s.countGrant (.commit n)).decideCommit_writes n e hl hs]
    rfl
  · rw [(s.countGrant (.commit n)).decideCommit_supersedes n e hl hs]
    rfl
  · rw [(s.countGrant (.commit n)).decideCommit_fills n e hl hs]
    rfl
  · rw [(s.countGrant (.commit n)).decideCommit_replaces n e hl hs]
    rfl
  · rw [(s.countGrant (.commit n)).decideCommit_holds n e hl hne hs]
    rfl

/-! ### A resolved commit -/

theorem State.recordDone_fetch (s : State) (n : Fin 4) (x : Bool) (sel : Selection)
    (h : (s.lane n).currentStep = some (.fetch x sel)) : s.recordDone n =
      if (s.lane n).stopAtStepEnd || decide (sel.last ≤ (s.lane n).position) then s.endStep n
      else s.takeFetch n x sel ((s.lane n).position + 1) := by
  unfold State.recordDone
  dsimp only
  rw [h]

theorem State.recordDone_send (s : State) (n : Fin 4) (c : Bool) (sel : Selection)
    (h : (s.lane n).currentStep = some (.send c sel)) : s.recordDone n =
      if (s.lane n).stopAtStepEnd || decide (sel.last ≤ (s.lane n).position) then s.endStep n
      else s.takeSend n c sel ((s.lane n).position + 1) := by
  unfold State.recordDone
  dsimp only
  rw [h]

/-- The record at the position is the last one that the step takes (R92, R96). -/
theorem Selection.lastTaken_iff (sel : Selection) (l : Lane) :
    (l.stopAtStepEnd || decide (sel.last ≤ l.position)) = true ↔ l.stopAtStepEnd = true ∨ sel.first + sel.count ≤ l.position + 1 := by
  rw [Bool.or_eq_true, decide_eq_true_eq, Selection.last]
  exact or_congr Iff.rfl (by omega)

/-- Settles O35, by R96. -/
theorem resolvedCommitGoesOn : Obligations.ResolvedCommitGoesOn := by
  intro n e x sel l s hstep hl
  have hlane : (s.setLane n l).lane n = l := State.lane_setLane_same _ _ _
  have hstep' : ((s.setLane n l).lane n).currentStep = some (.fetch x sel) := by rw [hlane, hl]; exact hstep
  have hresolved : s.commitResolved n e = if e.stamp.outcome.isFailure = true ∧ l.settings.halt = true
      then (s.setLane n l).enterFaulted n else (s.setLane n l).recordDone n := by
    unfold State.commitResolved
    dsimp only
    rw [← hl, hlane]
    simp only [Bool.and_eq_true]
  refine ⟨fun hfail => ?faults, fun hgood hlast => ?ends, fun hgood hstop hmore => ?next⟩
  case faults =>
    rw [hresolved, if_pos hfail, State.enterFaulted_eq, hlane, State.setLane_lanes, Four.set_set]
    rfl
  case ends =>
    rw [hresolved, if_neg hgood, State.recordDone_fetch _ n x sel hstep', hlane, if_pos ((sel.lastTaken_iff l).2 hlast)]
    rfl
  case next =>
    have hnot : ¬ (l.stopAtStepEnd || decide (sel.last ≤ l.position)) = true := by
      rw [sel.lastTaken_iff, hstop]
      rintro (h | h)
      · cases h
      · omega
    rw [hresolved, if_neg hgood, State.recordDone_fetch _ n x sel hstep', hlane, if_neg hnot, State.takeFetch_eq, hlane,
      State.setLane_setLane, hl]
    rfl

/-! ### The ends of write bursts -/

theorem State.retryHeld_holding (s : State) (n : Fin 4) (e : HoldEntry) (hstate : (s.lane n).state = .holding)
    (hwork : (s.lane n).work = .heldBack e) :
    s.retryHeld n = s.setLane n { s.lane n with state := .running, work := .commitClaim e } := by
  simp only [State.retryHeld, hstate, hwork]

theorem State.retryHeld_other (s : State) (n : Fin 4) (hstate : (s.lane n).state ≠ .holding) : s.retryHeld n = s := by
  unfold State.retryHeld
  dsimp only
  split
  case h_1 h _ => exact absurd h hstate
  case h_2 => rfl

/-- Each word of a burst is read back at its address when the addresses differ. -/
theorem Memory.readWord_writeAll_mem (writes : List (Addr × Word)) (m : List Host.Cell)
    (hnodup : (writes.map fun p => p.1).Nodup) (p : Addr × Word) (hp : p ∈ writes) (hm : Memory.wf m = true) :
    Memory.readWord (Memory.writeAll m writes) p.1 = p.2 := by
  induction writes generalizing m with
  | nil => cases hp
  | cons q rest ih =>
    rw [List.map_cons, List.nodup_cons] at hnodup
    obtain ⟨hfresh, hrest⟩ := hnodup
    have hwf := Memory.wf_writeWord m q.1 q.2 hm
    rcases List.mem_cons.1 hp with rfl | hp
    · have hother : ∀ r ∈ rest, r.1 ≠ p.1 := fun r hr he => hfresh (he ▸ List.mem_map_of_mem hr)
      exact (Memory.readWord_writeAll_other rest _ p.1 hother hwf).trans (Memory.readWord_writeWord_same m p.1 p.2 hm)
    · exact ih _ hrest hp hwf

/-- Settles O36: the end of a commit burst and of a drain burst, and what their words leave in memory. -/
theorem writeBurstEnds : Obligations.WriteBurstEnds := by
  intro n len done writes s
  have hdrain : exec .drainBurstEnd s = .next s.drainBurstEnd.settle := rfl
  have hlane : (s.endBurst.dropSlot n).lane n = s.lane n := s.lane_endBurst n
  refine ⟨fun e hp hwork => ?commit, fun e hp hstate hwork => ?retries, fun hp hstate => ?drain,
    fun hm => ⟨fun a ha => Memory.readWord_writeAll_other _ _ _ ha hm,
      fun hnodup p hp => Memory.readWord_writeAll_mem _ _ hnodup p hp hm⟩⟩
  case commit =>
    have hexec : exec .commitBurstEnd s = .next s.commitBurstEnd.settle := rfl
    have hend : s.commitBurstEnd = s.endBurst.commitResolved n e := by simp only [State.commitBurstEnd, hp, hwork]
    rw [hexec, hend, s.endBurst_held _ hp]
  case retries =>
    have hend : s.drainBurstEnd = (s.endBurst.dropSlot n).retryHeld n := by simp only [State.drainBurstEnd, hp]
    rw [hdrain, hend, State.retryHeld_holding _ n e (by rw [hlane]; exact hstate) (by rw [hlane]; exact hwork), hlane,
      s.endBurst_held _ hp]
    rfl
  case drain =>
    have hend : s.drainBurstEnd = (s.endBurst.dropSlot n).retryHeld n := by simp only [State.drainBurstEnd, hp]
    rw [hdrain, hend, State.retryHeld_other _ n (by rw [hlane]; exact hstate), s.endBurst_held _ hp]
    rfl

/-! ### Drain -/

/-- The addresses that an entry's words go to (R42). -/
theorem State.entryWrites_addresses (s : State) (e : HoldEntry) : ((s.entryWrites e).map fun p => p.1) =
    (List.range e.data.length ++ [(s.window e.window).size - 1]).map ((s.window e.window).wordAddr e.record) := by
  unfold State.entryWrites
  dsimp only
  rw [List.map_append, List.map_append, List.map_map]
  refine congrArg₂ _ ?_ rfl
  have hsnd : e.data.zipIdx.map Prod.snd = List.range e.data.length := by rw [List.zipIdx_map_snd, List.range_eq_range']
  rw [← hsnd, List.map_map]
  rfl

theorem State.entryWrites_length (s : State) (e : HoldEntry) : (s.entryWrites e).length = e.data.length + 1 := by
  simp [State.entryWrites]

theorem State.entryWrites_data (s : State) (e : HoldEntry) (j : Nat) (h : j < e.data.length) :
    (s.entryWrites e)[j]? = some ((s.window e.window).wordAddr e.record j, e.data[j]) := by
  unfold State.entryWrites
  dsimp only
  rw [List.getElem?_append_left (by simpa using h), List.getElem?_map, List.getElem?_zipIdx, List.getElem?_eq_getElem h]
  simp

theorem State.entryWrites_stamp (s : State) (e : HoldEntry) : (s.entryWrites e)[e.data.length]?
    = some ((s.window e.window).wordAddr e.record ((s.window e.window).size - 1), e.stamp.word) := by
  unfold State.entryWrites
  dsimp only
  rw [List.getElem?_append_right (by simp)]
  simp

/-- Two words of a record lie at different addresses (R3). -/
theorem wordAddr_inj (e : WindowEntry) (k i j : Nat) (hrange : EntryInRange e) (hk : k < e.count) (hi : i < e.size) (hj : j < e.size)
    (h : e.wordAddr k i = e.wordAddr k j) : i = j := by
  have hi' := (wordAddr_toNat e k i hrange hk hi).1
  have hj' := (wordAddr_toNat e k j hrange hk hj).1
  rw [h, hj'] at hi'
  omega

theorem State.entryWrites_nodup (s : State) (e : HoldEntry) (ha : AreaLaws s) (hused : (s.window e.window).used = true)
    (hrec : e.record < (s.window e.window).count) (hlen : e.data.length < (s.window e.window).size) :
    ((s.entryWrites e).map fun p => p.1).Nodup := by
  have hrange : EntryInRange (s.window e.window) := (ha.1 e.window hused).1
  rw [State.entryWrites_addresses]
  have hlt : ∀ i ∈ List.range e.data.length ++ [(s.window e.window).size - 1], i < (s.window e.window).size := by
    intro i hi
    rw [List.mem_append, List.mem_range, List.mem_singleton] at hi
    omega
  refine List.Nodup.map_on (fun i hi j hj h => wordAddr_inj _ _ i j hrange hrec (hlt i hi) (hlt j hj) h) ?_
  rw [List.nodup_append]
  refine ⟨List.nodup_range, List.nodup_singleton _, fun i hi j hj => ?_⟩
  rw [List.mem_range] at hi
  rw [List.mem_singleton] at hj
  omega

/-- The value of two words side by side. -/
theorem toNat_append_eq {m k : Nat} (x : BitVec m) (y : BitVec k) : (x ++ y).toNat = x.toNat * 2 ^ k + y.toNat := by
  rw [BitVec.toNat_append, ← Nat.shiftLeft_add_eq_or_of_lt y.isLt, Nat.shiftLeft_eq]

/-- The fields of a stamp (R94). -/
theorem Stamp.word_toNat (st : Stamp) (h : st.count < 32) : st.word.toNat =
    st.count * 2048 + st.outcome.stampCode.toNat * 256 + (if st.replaced then 128 else 0) + st.tag.toNat := by
  have hreplaced : (BitVec.ofBool st.replaced).toNat * 128 = if st.replaced then 128 else 0 := by cases st.replaced <;> rfl
  show (BitVec.ofNat 5 st.count ++ (st.outcome.stampCode ++ (BitVec.ofBool st.replaced ++ st.tag))).toNat = _
  rw [toNat_append_eq, toNat_append_eq, toNat_append_eq, BitVec.toNat_ofNat, ← hreplaced]
  omega

/-- Settles O37: the grant of a drain by the lock of its record, the words of an entry and the fields of a stamp. -/
theorem drainGrantResult : Obligations.DrainGrantResult := by
  refine ⟨fun e s => ⟨fun n hg hf hslot => ?grant, s.entryWrites_length e, s.entryWrites_data e, s.entryWrites_stamp e,
    s.entryWrites_nodup e⟩, fun st hcount => ?stamp⟩
  case grant =>
    have hexec : exec .drainGrant s = .next s.atGrant.drainGrant.settle := rfl
    rw [hexec, s.atGrant_grantable _ hg]
    refine ⟨fun hl => ?_, fun hl => ?_⟩
    · have hgrant : s.drainGrant = ({ s.countGrant (.drain n) with drains := s.drains.set n false } : State).holdPort (.drain n)
          (e.data.length + 1) (s.entryWrites e) := by
        simp only [State.drainGrant, hg, State.countGrant_slots, hslot]
        exact if_neg (Bool.eq_false_iff.1 hl)
      rw [hgrant]
      exact congrArg _ (State.settle_same s _ hf rfl (fun _ => rfl) rfl rfl)
    · have hgrant : s.drainGrant = { s.countGrant (.drain n) with drains := s.drains.set n false } := by
        simp only [State.drainGrant, hg, State.countGrant_slots, hslot]
        exact if_pos hl
      rw [hgrant]
      exact congrArg _ (State.settle_same s _ hf rfl (fun _ => rfl) rfl rfl)
  case stamp =>
    rw [st.word_toNat hcount]
    cases st.outcome <;> rfl

/-! ### Finishing -/

theorem State.noneForced_iff (s : State) : s.noneForced = true ↔ ∀ w ∈ s.status, w.forced = false := by
  simp only [State.noneForced, List.all_eq_true, Bool.not_eq_true']

theorem State.settle_drainWindows (s : State) (table : Sixteen WindowEntry) (he : s.engine = .executing (.drainWindows table)) :
    s.settle = if s.slotsEmpty then (s.installTable table).finishLong 0x05 .done 0 else s := by
  unfold State.settle
  rw [he]
  rfl

theorem State.settle_softReset (s : State) (he : s.engine = .executing .softReset) :
    s.settle = if s.noneForced then s.finishLong 0xA5 .done 0 else s := by
  unfold State.settle
  rw [he]
  rfl

theorem State.tableActive_iff (s : State) : s.tableActive = true ↔ s.mode ≠ .offline := by
  rw [State.tableActive, bne_iff_ne]

theorem State.installTable_active (s : State) (table : Sixteen WindowEntry) (hm : s.mode ≠ .offline) :
    s.installTable table = { s with table := table, locks := [], changed := Sixteen.ofFn fun w =>
      if (Sixteen.get table w).tracked then List.range (Sixteen.get table w).count else [] } := by
  unfold State.installTable
  rw [if_pos (s.tableActive_iff.2 hm)]

theorem State.installTable_offline (s : State) (table : Sixteen WindowEntry) (hm : s.mode = .offline) :
    s.installTable table = { s with table := table, changed := Sixteen.replicate [] } := by
  unfold State.installTable
  rw [if_neg fun h => s.tableActive_iff.1 h hm]

/-- Settles O38, command by command. -/
theorem longCommandsFinish : Obligations.LongCommandsFinish := by
  intro s
  refine ⟨s.settle_of_not_finishes, fun he hrest => ?goQuiet, fun he hrest hslots => ?goOffline,
    fun table he hm hslots => ?drainWindows, fun he hstatus => ?softReset⟩
  case goQuiet =>
    rw [s.settle_goQuiet he, if_pos (s.allAtRest_iff.2 hrest)]
    rfl
  case goOffline =>
    rw [s.settle_goOffline he, s.allAtRest_iff.2 hrest, s.slotsEmpty_iff.2 hslots, Bool.and_self, if_pos rfl]
    rfl
  case drainWindows =>
    rw [s.settle_drainWindows table he, if_pos (s.slotsEmpty_iff.2 hslots), s.installTable_active table hm]
    rfl
  case softReset =>
    rw [s.settle_softReset he, if_pos (s.noneForced_iff.2 hstatus)]
    rfl

/-! ### Status writes -/

/-- Settles O41: the cause word, then every other word. -/
theorem statusWriteResult : Obligations.StatusWriteResult := by
  intro i s hg hchoice
  have hexec : exec .statusWriteGrant s = .next s.atGrant.statusWriteGrant.settle := rfl
  have hgrant : s.statusWriteGrant = ((s.countGrant .status).writeStatus i).holdPort .status 1 [] := by
    simp only [State.statusWriteGrant, hg, hchoice]
  rw [hexec, s.atGrant_grantable _ hg, hgrant]
  refine ⟨fun hi => ?cause, fun hi => ?other⟩
  case cause =>
    subst hi
    rfl
  case other =>
    have hcause : ¬ i = causeIndex := hi
    unfold State.writeStatus
    dsimp only
    rw [if_neg hcause, if_neg hcause]
    rfl

end Sys2Proof.Machine
end

section
/-! PROOF. The last bursts of LOAD SETTINGS and LOAD WINDOWS: what their checks find, and what they install (R9 to R13, R25, R36,
R161, R162). -/

namespace Sys2Proof.Machine

/-! ### The last burst -/

/-- The checks follow the ninth burst of LOAD SETTINGS. -/
theorem State.tableReadEnd_settings (s : State) (staging : List Quad) (done : Nat)
    (hp : s.port = some { user := .tableRead, length := 4, writes := [], done := done })
    (he : s.engine = .executing (.loadSettings staging)) (hlen : staging.length = 9) :
    exec .commandTableReadEnd s = .next (({ s with port := none } : State).checkSettings staging).settle := by
  have hexec : exec .commandTableReadEnd s = .next s.tableReadEnd.settle := rfl
  have hend : s.endBurst = { s with port := none } := s.endBurst_held _ hp
  have hread : s.tableReadEnd = s.endBurst.checkSettings staging := by
    simp only [State.tableReadEnd, hp, State.endBurst_engine, he]
    exact if_pos hlen.ge
  rw [hexec, hread, hend]

/-- The checks follow the sixteenth burst of LOAD WINDOWS. -/
theorem State.tableReadEnd_windows (s : State) (image : List Quad) (done : Nat)
    (hp : s.port = some { user := .tableRead, length := 4, writes := [], done := done })
    (he : s.engine = .executing (.loadWindows image)) (hlen : image.length = 16) :
    exec .commandTableReadEnd s = .next (({ s with port := none } : State).checkWindows image).settle := by
  have hexec : exec .commandTableReadEnd s = .next s.tableReadEnd.settle := rfl
  have hend : s.endBurst = { s with port := none } := s.endBurst_held _ hp
  have hread : s.tableReadEnd = s.endBurst.checkWindows image := by
    simp only [State.tableReadEnd, hp, State.endBurst_engine, he]
    exact if_pos hlen.ge
  rw [hexec, hread, hend]

theorem State.settle_finishLong (s : State) (code : Byte) (o : CommandOutcome) (d : Word) :
    (s.finishLong code o d).settle = s.finishLong code o d := State.settle_idle _ rfl

/-! ### LOAD SETTINGS -/

section CheckSettings

variable (s : State) (staging : List Quad)

theorem State.checkSettings_range (off : Nat) (h : settingsRangeFault staging = some off) :
    s.checkSettings staging = s.finishLong 0x04 .range (BitVec.ofNat 16 off) := by
  unfold State.checkSettings
  rw [h]
  rfl

theorem State.checkSettings_overlap (n : Fin 4) (hr : settingsRangeFault staging = none) (ho : s.settingsOverlap staging = some n) :
    s.checkSettings staging = s.finishLong 0x04 .overlap (BitVec.ofNat 16 n.val) := by
  unfold State.checkSettings
  rw [hr]
  dsimp only
  rw [ho]
  rfl

theorem State.checkSettings_installs (hr : settingsRangeFault staging = none) (ho : s.settingsOverlap staging = none) :
    s.checkSettings staging = (s.installSettings staging).finishLong 0x04 .done 0 := by
  unfold State.checkSettings
  rw [hr]
  dsimp only
  rw [ho]
  rfl

end CheckSettings

/-- The lowest bits of a word. -/
theorem extractLsb'_low (w : Word) (k : Nat) : w.extractLsb' 0 k = w.setWidth k := by
  ext i hi
  simp

/-- The device settings that an image holds, word by word (section 10.1.4). -/
theorem deviceSettings_of_image (staging : List Quad) : deviceSettingsOfQuad (burstAt staging 0) =
    { enableA := settingWord staging 0x03, enableB := (settingWord staging 0x04).setWidth 3
      lockTime := (settingWord staging 0x05).toNat, triggerFalling := (settingWord staging 0x06).getLsbD 0 } := by
  obtain ⟨h3, h4, h5, h6⟩ := settingWord_device staging
  rw [h3, h4, h5, h6, ← extractLsb'_low]
  rfl

/-- The lane settings that an image holds, word by word (section 10.1.5). -/
theorem newSettings_of_image (staging : List Quad) (n : Fin 4) : newSettings staging n =
    { divider := (settingWord staging (0x10 + 8 * n.val)).toNat
      replyTimeout := (settingWord staging (0x11 + 8 * n.val)).toNat
      page := if settingWord staging (0x12 + 8 * n.val) = 0xFFFF then none
        else some ((settingWord staging (0x12 + 8 * n.val)).setWidth 12)
      triggerSource := (settingWord staging (0x13 + 8 * n.val)).getLsbD 0
      halt := (settingWord staging (0x13 + 8 * n.val)).getLsbD 1
      activeLow := (settingWord staging (0x13 + 8 * n.val)).getLsbD 2
      period := (settingWord staging (0x14 + 8 * n.val)).toNat
      pulseWidth := (settingWord staging (0x15 + 8 * n.val)).toNat } := by
  obtain ⟨h0, h1, h2, h3, h4, h5⟩ := settingWord_lane staging n
  rw [h0, h1, h2, h3, h4, h5, ← extractLsb'_low]
  rfl

/-- Settles O39: a word out of range, an area that overlaps, or the installation. -/
theorem loadSettingsFinishes : Obligations.LoadSettingsFinishes := by
  intro staging done s hp he hlen
  rw [s.tableReadEnd_settings staging done hp he hlen]
  refine ⟨fun off hbad hbefore => ?range, fun n hvalid hmeets hbefore => ?overlap, fun hvalid hapart => ?installs⟩
  case range =>
    rw [State.checkSettings_range _ _ off (settingsRangeFault_first staging off hbad hbefore), State.settle_finishLong]
    rfl
  case overlap =>
    have hoverlap : ({ s with port := none } : State).settingsOverlap staging = some n :=
      State.settingsOverlap_first _ staging hvalid n hmeets hbefore
    rw [State.checkSettings_overlap _ _ n ((settingsRangeFault_none_iff staging).2 hvalid) hoverlap, State.settle_finishLong]
    rfl
  case installs =>
    have hoverlap : ({ s with port := none } : State).settingsOverlap staging = none :=
      (State.settingsOverlap_none_iff _ staging hvalid).2 hapart
    rw [State.checkSettings_installs _ _ ((settingsRangeFault_none_iff staging).2 hvalid) hoverlap, State.settle_finishLong,
      State.installSettings, deviceSettings_of_image]
    simp only [newSettings_of_image]
    rfl

/-! ### LOAD WINDOWS -/

section CheckWindows

variable (s : State) (image : List Quad)

theorem State.checkWindows_fault (o : CommandOutcome) (i : Nat) (h : s.tableFault [] image = some (o, i)) :
    s.checkWindows image = s.finishLong 0x05 o (BitVec.ofNat 16 i) := by
  unfold State.checkWindows
  rw [h]
  rfl

theorem State.checkWindows_offline (h : s.tableFault [] image = none) (hm : s.mode = .offline) :
    s.checkWindows image = (s.installTable (tableOfImage image)).finishLong 0x05 .done 0 := by
  unfold State.checkWindows
  rw [h]
  dsimp only
  rw [if_neg fun hactive => s.tableActive_iff.1 hactive hm]
  rfl

theorem State.checkWindows_active (h : s.tableFault [] image = none) (hm : s.mode ≠ .offline) :
    s.checkWindows image = { s.releaseAll with engine := .executing (.drainWindows (tableOfImage image)) } := by
  unfold State.checkWindows
  rw [h]
  dsimp only
  rw [if_pos (s.tableActive_iff.2 hm)]

end CheckWindows

/-- The drain claims of empty slots stay as they are. -/
theorem State.drains_of_empty (s : State) (h : ∀ n, s.slots.get n = none) :
    (Four.ofFn fun n => s.drains.get n || (s.slots.get n).isSome) = s.drains :=
  Four.ext_get _ _ fun n => by rw [Four.get_ofFn, h n, Option.isSome_none, Bool.or_false]

/-- The last burst of a LOAD WINDOWS whose entries all pass: at once in OFFLINE, and else when no slot is occupied (R11 to R13). -/
theorem State.loadWindows_passes (s : State) (image : List Quad) (hlen : image.length = 16)
    (hpass : ∀ i, i < 16 → ImagePasses s image i) :
    (s.mode = .offline → (s.checkWindows image).settle = { s with
      engine := .idle, result := resultOf 0x05 .done 0
      resultMarked := true, detailMarked := true, events := s.events ||| BitVec.twoPow 19 18
      table := tableOfImage image, changed := Sixteen.replicate [] })
    ∧ (s.mode ≠ .offline → (∃ n, s.slots.get n ≠ none) → (s.checkWindows image).settle = { s with
      engine := .executing (.drainWindows (tableOfImage image)), locks := []
      drains := Four.ofFn fun n => s.drains.get n || (s.slots.get n).isSome })
    ∧ (s.mode ≠ .offline → (∀ n, s.slots.get n = none) → (s.checkWindows image).settle = { s with
      engine := .idle, result := resultOf 0x05 .done 0
      resultMarked := true, detailMarked := true, events := s.events ||| BitVec.twoPow 19 18
      table := tableOfImage image, locks := []
      changed := Sixteen.ofFn fun w =>
        if (Sixteen.get (tableOfImage image) w).tracked then List.range (Sixteen.get (tableOfImage image) w).count else [] }) := by
  have hfault : s.tableFault [] image = none := s.tableFault_of_passes image (by rw [hlen]; exact hpass)
  refine ⟨fun hm => ?_, fun hm hheld => ?_, fun hm hempty => ?_⟩
  · rw [s.checkWindows_offline image hfault hm, State.settle_finishLong, s.installTable_offline _ hm]
    rfl
  · have hslots : ¬ s.slotsEmpty = true := fun h => hheld.elim fun n hn => hn (s.slotsEmpty_iff.1 h n)
    rw [s.checkWindows_active image hfault hm, State.settle_drainWindows _ (tableOfImage image) rfl]
    exact if_neg hslots
  · rw [s.checkWindows_active image hfault hm, State.settle_drainWindows _ (tableOfImage image) rfl]
    refine (if_pos (s.slotsEmpty_iff.2 hempty)).trans ?_
    rw [State.installTable_active { s.releaseAll with engine := .executing (.drainWindows (tableOfImage image)) } _ hm]
    simp only [State.releaseAll, s.drains_of_empty hempty]
    rfl

/-- Settles O40: the first entry that fails, the installation, and the entries of an image. -/
theorem loadWindowsFinishes : Obligations.LoadWindowsFinishes := by
  refine ⟨fun image done s hp he hlen => ?bursts, fun image w q e hq htable => ?entries⟩
  case bursts =>
    rw [s.tableReadEnd_windows image done hp he hlen]
    have hfails : ∀ i o, i < 16 → (∀ j, j < i → ImagePasses s image j) →
        ({ s with port := none } : State).windowFault (entriesBefore image i) (burstAt image i) = some o →
        (({ s with port := none } : State).checkWindows image).settle = { s with
          port := none, engine := .idle, result := resultOf 0x05 o (BitVec.ofNat 16 i)
          resultMarked := true, detailMarked := true, events := s.events ||| BitVec.twoPow 19 18 } := fun i o hi hbefore hfail => by
      rw [({ s with port := none } : State).checkWindows_fault image o i (State.tableFault_at _ image i (by omega) o hbefore hfail),
        State.settle_finishLong]
      rfl
    have hfault := fun i (hi : i < 16) => ({ s with port := none } : State).windowFault_image image i (by omega)
    refine ⟨fun i hi hbefore hrange => ?_, fun i hi hbefore hrange hmeets => ?_, fun hpass => ?_⟩
    · exact congrArg _ (hfails i .range hi hbefore ((hfault i hi).1 hrange))
    · exact congrArg _ (hfails i .overlap hi hbefore ((hfault i hi).2.1 hrange hmeets))
    · obtain ⟨hoffline, hheld, hempty⟩ := ({ s with port := none } : State).loadWindows_passes image hlen hpass
      exact ⟨fun hm => congrArg _ (hoffline hm), fun hm h => congrArg _ (hheld hm h), fun hm h => congrArg _ (hempty hm h)⟩
  case entries =>
    rw [tableOfImage_get, ← hq] at htable
    subst htable
    refine ⟨windowOfQuad_unused q, fun hused => ?_⟩
    obtain ⟨hbase, hsize, hcount, _, hkind, hoption, hlane⟩ := windowOfQuad_fields q hused
    exact ⟨hbase, hlane, hkind, hoption, hsize, hcount⟩

end Sys2Proof.Machine
end

section
/-! PROOF. The value of every status word (section 10.6), the cause (R168), and the word that a status write chooses (R171,
R172). -/

namespace Sys2Proof.Machine

/-! ### The device words -/

theorem deviceStatusWord_toNat (s : State) : (deviceStatusWord s).toNat = s.mode.code + (if s.frozen then 4 else 0)
    + (if s.armed then 8 else 0) + (if s.engine = .idle then 0 else 16) + 32 * s.resetCause.code + 256 * s.strap.toNat := by
  have hmode : s.mode.code ≤ 2 := by cases s.mode <;> decide
  have hcause : s.resetCause.code ≤ 3 := by cases s.resetCause <;> decide
  have hstrap := s.strap.isLt
  rw [deviceStatusWord, BitVec.toNat_ofNat]
  refine Nat.mod_eq_of_lt ?_
  split_ifs <;> omega

theorem joinBytes_toNat (hi lo : Byte) : (joinBytes hi lo).toNat = hi.toNat * 256 + lo.toNat := toNat_append_eq hi lo

theorem lockSummaryWord_toNat (s : State) (h : s.locks.length ≤ 4) : (lockSummaryWord s).toNat = s.locks.length
    + (if s.slots.e0.isSome then 0x100 else 0) + (if s.slots.e1.isSome then 0x200 else 0)
    + (if s.slots.e2.isSome then 0x400 else 0) + (if s.slots.e3.isSome then 0x800 else 0) := by
  rw [lockSummaryWord, BitVec.toNat_ofNat]
  refine Nat.mod_eq_of_lt ?_
  split_ifs <;> omega

/-! ### The words of a lane -/

/-- The status words of lane n are the eight from index 9 + 8n on (R128). -/
theorem State.statusValue_lane (s : State) (n : Fin 4) (i j : Nat) (hj : j < 8) (hi : i = 9 + 8 * n.val + j) :
    s.statusValue i = laneStatusWord (s.lane n) (s.slots.get n) j := by
  have hlane : (⟨(i - 9) / 8 % 4, Nat.mod_lt _ (by decide)⟩ : Fin 4) = n := Fin.ext (by
    have := n.isLt
    show (i - 9) / 8 % 4 = n.val
    omega)
  have hword : (i - 9) % 8 = j := by omega
  unfold State.statusValue
  split
  case h_10 => rw [hlane, hword]
  all_goals omega

theorem laneStateWord_toNat (l : Lane) : (laneStateWord l).toNat = l.state.code + (if l.stopAtCycleEnd then 0x100 else 0)
    + (if l.stopAtStepEnd then 0x200 else 0) + (if l.startOwed then 0x400 else 0) + (if l.triggerLatch then 0x800 else 0)
    + (if l.loaded then 0x1000 else 0) := by
  have hstate : l.state.code ≤ 4 := by cases l.state <;> decide
  rw [laneStateWord, BitVec.toNat_ofNat]
  refine Nat.mod_eq_of_lt ?_
  split_ifs <;> omega

/-- A number below 64 K is the value of its word. -/
theorem toNat_word (k : Nat) (h : k < 65536) : (BitVec.ofNat 16 k).toNat = k := by
  rw [BitVec.toNat_ofNat]
  exact Nat.mod_eq_of_lt h

theorem toNat_widened {k : Nat} (x : BitVec k) (hk : k ≤ 16) : (x.setWidth 16).toNat = x.toNat := by
  rw [BitVec.toNat_setWidth]
  exact Nat.mod_eq_of_lt (x.isLt.trans_le (Nat.pow_le_pow_right (by decide) hk))

/-! ### The cause -/

theorem eventCodes_eq : eventCodes = List.range' 1 19 := rfl

/-- Event c is pending and enabled. -/
theorem State.asserted_iff (s : State) (c : Nat) : (s.events &&& s.settings.enables).getLsbD (c - 1) = true ↔
    s.isPending c = true ∧ s.settings.enables.getLsbD (c - 1) = true := by
  rw [BitVec.getLsbD_and, Bool.and_eq_true, State.isPending]

/-- The cause is the lowest code both pending and enabled (R168). -/
theorem State.cause_eq_iff (s : State) (c : Nat) (h1 : 1 ≤ c) (h2 : c ≤ 19) : s.cause = c ↔
    (s.isPending c = true ∧ s.settings.enables.getLsbD (c - 1) = true)
    ∧ ∀ d, 1 ≤ d → d < c → ¬ (s.isPending d = true ∧ s.settings.enables.getLsbD (d - 1) = true) := by
  have hfind : s.cause = c ↔ eventCodes.find? (fun c => (s.events &&& s.settings.enables).getLsbD (c - 1)) = some c := by
    unfold State.cause
    cases eventCodes.find? (fun c => (s.events &&& s.settings.enables).getLsbD (c - 1)) with
    | none => exact ⟨fun h => absurd (h ▸ h1) (by decide), nofun⟩
    | some d => rw [Option.getD_some, Option.some_inj]
  rw [hfind, eventCodes_eq, List.find?_range'_eq_some, State.asserted_iff, List.mem_range'_1]
  simp only [Bool.not_eq_true', Bool.eq_false_iff, Ne, State.asserted_iff]
  exact ⟨fun ⟨hc, _, hlow⟩ => ⟨hc, hlow⟩, fun ⟨hc, hlow⟩ => ⟨hc, ⟨h1, by omega⟩, hlow⟩⟩

theorem State.cause_le (s : State) : s.cause ≤ 19 := by
  unfold State.cause
  cases h : eventCodes.find? (fun c => (s.events &&& s.settings.enables).getLsbD (c - 1)) with
  | none => exact Nat.zero_le _
  | some d =>
    have hmem := List.mem_of_find?_eq_some h
    rw [eventCodes_eq, List.mem_range'_1] at hmem
    rw [Option.getD_some]
    omega

/-! ### Stale words -/

theorem State.marked_iff (s : State) (i : Nat) : s.marked i = true ↔
    (i = 1 ∧ s.resultMarked = true) ∨ (i = 2 ∧ s.detailMarked = true) ∨ (i = 6 ∧ s.guardLowMarked = true)
      ∨ (i = 7 ∧ s.guardHighMarked = true) := by
  unfold State.marked
  split
  case h_5 h1 h2 h6 h7 =>
    refine ⟨nofun, ?_⟩
    rintro (⟨h, _⟩ | ⟨h, _⟩ | ⟨h, _⟩ | ⟨h, _⟩)
    · exact absurd h h1
    · exact absurd h h2
    · exact absurd h h6
    · exact absurd h h7
  all_goals simp

/-- A word is stale by its forced flag, its value or its mark (R171). -/
theorem State.stale_iff (s : State) (i : Nat) (w : StatusSlot) (h : s.status[i]? = some w) : s.stale i = true ↔
    w.forced = true ∨ s.statusValue i ≠ w.written ∨ s.marked i = true := by
  have hslot : s.statusSlot i = w := by
    rw [State.statusSlot, List.getD_eq_getElem?_getD, h, Option.getD_some]
  rw [State.stale, State.forced, hslot, Bool.or_eq_true, Bool.or_eq_true, bne_iff_ne]
  tauto

/-- A result that differs from the one before marks both its words; an equal one changes nothing (R150). -/
theorem State.answered_stale (s : State) (r : Result) :
    (s.result ≠ r → (s.answered r).stale 1 = true ∧ (s.answered r).stale 2 = true) ∧ (s.result = r → s.answered r = s) := by
  refine ⟨fun hne => s.setResult_stale r.code r.outcome r.detail hne, fun heq => ?_⟩
  subst heq
  unfold State.answered
  rw [if_pos rfl, if_pos rfl]

/-! ### The choice of a status write -/

/-- The i-th word stands at distance (i + 41 - sweep) mod 41 from the sweep position (R172). -/
theorem sweep_distance (sweep d : Nat) (hs : sweep < 41) (hd : d < 41) : ((sweep + d) % 41 + 41 - sweep) % 41 = d := by
  omega

theorem sweep_at_distance (sweep i : Nat) (hs : sweep < 41) (hi : i < 41) : (sweep + (i + 41 - sweep) % 41) % 41 = i := by
  omega

/-- With the cause word not stale the first stale word from the sweep position on is chosen (R172). -/
theorem State.statusChoice_eq_some_iff (s : State) (h3 : s.stale 3 = false) (hs : s.sweep < 41) (i : Nat) :
    s.statusChoice = some i ↔ i < 41 ∧ s.stale i = true
      ∧ ∀ j, j < 41 → s.stale j = true → (i + 41 - s.sweep) % 41 ≤ (j + 41 - s.sweep) % 41 := by
  have hchoice : s.statusChoice =
      ((List.range 41).find? fun d => s.stale ((s.sweep + d) % 41)).map fun d => (s.sweep + d) % 41 := by
    unfold State.statusChoice
    rw [if_neg (show ¬ s.stale causeIndex = true from Bool.eq_false_iff.1 h3), sweepOrder, List.find?_map]
    rfl
  rw [hchoice, Option.map_eq_some_iff]
  simp only [List.find?_range_eq_some, List.mem_range, Bool.not_eq_true']
  constructor
  · rintro ⟨d, ⟨hstale, hd, hbefore⟩, rfl⟩
    refine ⟨Nat.mod_lt _ (by decide), hstale, fun j hj hjs => ?_⟩
    rw [sweep_distance _ d hs hd]
    by_contra hlt
    have hno := hbefore _ (Nat.lt_of_not_le hlt)
    rw [sweep_at_distance _ j hs hj, hjs] at hno
    cases hno
  · rintro ⟨hi, hstale, hfirst⟩
    refine ⟨(i + 41 - s.sweep) % 41, ⟨?_, Nat.mod_lt _ (by decide), fun d hd => ?_⟩, sweep_at_distance _ i hs hi⟩
    · rwa [sweep_at_distance _ i hs hi]
    · have hd41 : d < 41 := hd.trans (Nat.mod_lt _ (by decide))
      rw [Bool.eq_false_iff]
      intro hds
      have hle := hfirst _ (Nat.mod_lt _ (by decide)) hds
      rw [sweep_distance _ d hs hd41] at hle
      omega

/-! ### Every word -/

theorem State.statusValue_events (s : State) (j : Nat) (hj : j < 16) : (s.statusValue 4).getLsbD j = s.isPending (j + 1)
    ∧ (s.statusValue 5).getLsbD j = (decide (j < 3) && s.isPending (j + 17)) := by
  refine ⟨?_, ?_⟩
  · show (s.events.extractLsb' 0 16).getLsbD j = s.events.getLsbD (j + 1 - 1)
    rw [BitVec.getLsbD_extractLsb', decide_eq_true hj, Bool.true_and, Nat.zero_add, Nat.add_sub_cancel]
  · show ((s.events.extractLsb' 16 3).setWidth 16).getLsbD j = (decide (j < 3) && s.events.getLsbD (j + 17 - 1))
    rw [BitVec.getLsbD_setWidth, BitVec.getLsbD_extractLsb', decide_eq_true hj, Bool.true_and, Nat.add_comm 16 j]
    rfl

theorem State.statusValue_guard (s : State) : (s.statusValue 6).toNat = s.guardAddr.toNat % 65536
    ∧ (s.statusValue 7).toNat = s.guardAddr.toNat / 65536 := by
  refine ⟨?_, ?_⟩
  · show (s.guardAddr.extractLsb' 0 16).toNat = _
    rw [BitVec.extractLsb'_toNat, Nat.shiftRight_zero]
  · have hlt := s.guardAddr.isLt
    show ((s.guardAddr.extractLsb' 16 4).setWidth 16).toNat = _
    rw [toNat_widened _ (by decide), BitVec.extractLsb'_toNat, Nat.shiftRight_eq_div_pow]
    omega

/-- Settles O42, word by word. -/
theorem statusWordValues : Obligations.StatusWordValues := by
  intro s
  refine ⟨?device, ?result, rfl, toNat_word _ (by have := s.cause_le; omega), s.cause_le, s.cause_eq_iff,
    fun j _ => s.settings.getLsbD_enables j, s.statusValue_events, s.statusValue_guard.1, s.statusValue_guard.2, fun hlen => ?locks,
    fun n => ?lanes, fun i w hw => ?stale, s.answered_stale, s.statusChoice_eq_none_iff, fun h3 => if_pos h3,
    s.statusChoice_eq_some_iff⟩
  case device =>
    refine (deviceStatusWord_toNat s).trans ?_
    rw [Nat.mul_comm 256]
    cases s.mode <;> cases s.resetCause <;> rfl
  case result =>
    refine (joinBytes_toNat _ _).trans (congrArg _ ?_)
    cases s.result.outcome <;> rfl
  case locks =>
    refine (lockSummaryWord_toNat s hlen).trans ?_
    simp only [Option.isSome_iff_ne_none]
    rfl
  case lanes =>
    have word := s.statusValue_lane n
    refine ⟨?_, ?_, word _ 2 (by decide) (by omega), ?_, ?_, ?_, ?_, fun hslot => ?_, fun e hslot hrec => ?_⟩
    · rw [word _ 0 (by decide) (by omega)]
      refine (laneStateWord_toNat _).trans ?_
      simp only [Lane.loaded, Option.isSome_iff_ne_none]
      cases (s.lane n).state <;> rfl
    · rw [word _ 1 (by decide) (by omega)]
      exact toNat_word _ (by omega)
    · have hcode : (s.lane n).lastError.code.code ≤ 8 := by cases (s.lane n).lastError.code <;> decide
      rw [word _ 3 (by decide) (by omega)]
      refine (toNat_word _ (by omega)).trans ?_
      cases (s.lane n).lastError.code <;> rfl
    · rw [word _ 4 (by decide) (by omega)]
      exact toNat_word _ (by omega)
    · rw [word _ 5 (by decide) (by omega)]
      exact toNat_widened _ (by decide)
    · rw [word _ 6 (by decide) (by omega)]
      exact toNat_widened _ (by decide)
    · rw [word _ 7 (by decide) (by omega), hslot]
      rfl
    · rw [word _ 7 (by decide) (by omega), hslot]
      exact toNat_word _ (by omega)
  case stale => rw [s.stale_iff i w hw, s.marked_iff]

end Sys2Proof.Machine
end

section
/-! PROOF. The string link: the words of a call (R59, R61), a unit of time in a link engine (R56 to R60, R63, R64, R67, R69, R71),
and the beginnings of calls and ends of marks (R62, R71). -/

namespace Sys2Proof.Machine

/-! ### Words on the lane -/

/-- Folding with *xor* tells whether the count of ones is odd. -/
theorem foldl_xor_eq (bits : List Bool) (b : Bool) : bits.foldl xor b = xor b (decide (bits.count true % 2 = 1)) := by
  induction bits generalizing b with
  | nil => simp
  | cons x rest ih =>
    rw [List.foldl_cons, ih]
    cases x
    · simp
    · have hparity : decide ((rest.count true + 1) % 2 = 1) = !decide (rest.count true % 2 = 1) := by
        rw [← decide_not, decide_eq_decide]
        omega
      rw [List.count_cons_self, hparity]
      cases b <;> simp

theorem oddOnes_eq (w : Word) : oddOnes w = decide ((dataBits w).count true % 2 = 1) := by
  rw [oddOnes, foldl_xor_eq, Bool.false_xor]

/-- Data bits and parity bit hold an odd number of ones (R59). -/
theorem frame_parity (w : Word) : ((frame w).drop 1).count true % 2 = 1 := by
  show (dataBits w ++ [parityBit w]).count true % 2 = 1
  rw [List.count_append, parityBit, oddOnes_eq]
  by_cases h : (dataBits w).count true % 2 = 1
  · rw [decide_eq_true h]
    exact h
  · rw [decide_eq_false h]
    show ((dataBits w).count true + 1) % 2 = 1
    omega

/-- The header word (R61). -/
theorem Call.header_toNat (c : Call) (h : c.count < 256) : c.header.toNat = c.node.toNat * 1024 + c.verb.code.toNat * 256 + c.count := by
  show (c.node ++ (c.verb.code ++ BitVec.ofNat 8 c.count)).toNat = _
  rw [toNat_append_eq, toNat_append_eq, BitVec.toNat_ofNat]
  omega

/-- Settles O44: the frame of a word, and the header of each verb. -/
theorem wordsOnTheLane : Obligations.WordsOnTheLane := by
  refine ⟨fun w => ⟨rfl, rfl, fun j => ?_, frame_parity w⟩, fun c => ⟨rfl, fun hv hlen => ?_, fun hv hlen => ?_, fun hv hlen => ?_⟩⟩
  · fin_cases j <;> rfl
  all_goals
    have hheader := c.header_toNat
    simp only [Call.count, hv, Verb.code] at hheader
    refine (hheader hlen).trans ?_
    simp

/-! ### A unit of time in a link engine -/

section Advance

variable (l : Link) (level : Bool)

theorem Link.advance_idle (h : l.engine = .idle) : l.advance level = { l with pause := l.pause - 1 } := by
  unfold Link.advance
  rw [if_pos h]

theorem Link.advance_within (h : l.engine ≠ .idle) (hb : l.sub + 1 < l.divider) :
    l.advance level = { l with sub := l.sub + 1 } := by
  have hends : l.bitEnds = false := by
    unfold Link.bitEnds
    rw [decide_eq_false (by omega), Bool.and_false]
  unfold Link.advance
  rw [if_neg h, if_neg (Bool.eq_false_iff.1 hends)]

theorem Link.advance_bitEnds (h : l.engine ≠ .idle) (hb : l.divider ≤ l.sub + 1) :
    l.advance level = ({ l with sub := 0 } : Link).endBit level := by
  have hends : l.bitEnds = true := by
    unfold Link.bitEnds
    rw [decide_eq_true hb, Bool.and_true, bne_iff_ne]
    exact h
  unfold Link.advance
  rw [if_neg h, if_pos hends]

theorem Link.endBit_send (c : Call) (h : l.engine = .send) (hc : l.call = some c) : l.endBit level =
    if l.bit + 1 < 18 * (1 + c.words.length) then { l with bit := l.bit + 1 }
    else { l with bit := 0, engine := if c.node = 63 then .tail else .turnaround } := by
  have hbits : Config.wordBits * c.sent.length = 18 * (1 + c.words.length) := by
    rw [Call.sent, List.length_cons, Nat.add_comm]
    rfl
  simp only [Link.endBit, h, hc, hbits]
  refine if_congr Iff.rfl rfl ?_
  unfold Call.isBroadcast
  by_cases hnode : c.node = 63
  · rw [if_pos hnode, if_pos (beq_iff_eq.2 hnode)]
  · rw [if_neg hnode, if_neg (fun e => hnode (beq_iff_eq.1 e))]

theorem Link.endBit_turnaround (h : l.engine = .turnaround) : l.endBit level =
    if l.bit = 0 then { l with bit := 1 } else { l with bit := 0, engine := .replyWait } := by
  simp only [Link.endBit, h]
  by_cases hb : l.bit = 0
  · rw [if_pos hb, if_pos (show l.bit + 1 < Config.turnaroundBits by rw [hb]; decide), hb]
  · rw [if_neg hb, if_neg (show ¬ l.bit + 1 < Config.turnaroundBits by unfold Config.turnaroundBits; omega)]

end Advance

/-! ### The word that received bits spell -/

theorem wordOfBits_snoc (bits : List Bool) (b : Bool) :
    wordOfBits (bits ++ [b]) = (wordOfBits bits <<< 1) ||| (if b then 1 else 0) := by
  rw [wordOfBits, List.foldl_append]
  rfl

/-- Bit i of the word is the i-th bit from the last one received (R60). -/
theorem getLsbD_wordOfBits (bits : List Bool) (i : Nat) (hi : i < 16) : (wordOfBits bits).getLsbD i = bits.reverse.getD i false := by
  induction bits using List.reverseRecOn generalizing i with
  | nil => simp [wordOfBits]
  | append_singleton bits b ih =>
    rw [wordOfBits_snoc, BitVec.getLsbD_or, BitVec.getLsbD_shiftLeft, List.reverse_append, List.reverse_singleton, List.singleton_append]
    cases i with
    | zero => cases b <;> rfl
    | succ i =>
      have hbit : (if b then (1 : Word) else 0).getLsbD (i + 1) = false := by
        cases b
        · exact BitVec.getLsbD_zero
        · show (1#16).getLsbD (i + 1) = false
          rw [BitVec.getLsbD_one]
          simp
      rw [hbit, Bool.or_false, List.getD_cons_succ, ← ih i (by omega)]
      simp [hi]

theorem wordOfBits_dataBits (w : Word) : wordOfBits (dataBits w) = w := by
  refine BitVec.eq_of_getLsbD_eq fun i hi => ?_
  have hbits : (dataBits w).reverse = (List.range 16).map w.getLsbD := rfl
  rw [getLsbD_wordOfBits _ i hi, hbits, List.getD_eq_getElem?_getD, List.getElem?_map, List.getElem?_range hi]
  rfl

/-! ### Events that are due, and the pins -/

section Due

variable (l : Link) (n : Fin 4)

theorem Link.due_idle (h : l.engine = .idle) :
    l.due n = if l.request ≠ none ∧ l.pause = 0 then some (.callBegin n) else none := by
  simp only [Link.due, h]
  refine if_congr ?_ rfl rfl
  rw [Bool.and_eq_true, Option.isSome_iff_ne_none, beq_iff_eq]

theorem Link.due_mark (h : l.engine = .mark) : l.due n = if 1 + 40 ≤ l.bit then some (.abortMarkEnd n) else none := by
  simp only [Link.due, h]
  exact if_congr Nat.lt_iff_add_one_le rfl rfl

/-- Before its 17 samples no word is received (R60). -/
theorem Link.due_early (h : l.engine = .reply ∨ l.engine = .data) (hb : l.bit < 17) : l.due n = none := by
  have hno : ¬ Config.wordBits ≤ l.bit + 1 := by unfold Config.wordBits; omega
  rcases h with h | h <;> simp only [Link.due, h] <;> exact if_neg hno

/-- The word and the parity bit that 17 samples spell (R60). -/
theorem Link.due_word (w : Word) (p : Bool) (hw : l.received = dataBits w ++ [p]) (hb : 17 ≤ l.bit) :
    (l.engine = .reply → l.due n = some (.replyReceived n w p))
    ∧ (l.engine = .data → l.due n = some (.dataWordReceived n w p)) := by
  have hdue : Config.wordBits ≤ l.bit + 1 := by unfold Config.wordBits; omega
  have hword : wordOfBits (l.received.take 16) = w := by
    rw [hw, show (dataBits w ++ [p]).take 16 = dataBits w from rfl, wordOfBits_dataBits]
  have hparity : l.received.getD 16 false = p := by rw [hw]; rfl
  refine ⟨fun h => ?_, fun h => ?_⟩ <;> simp only [Link.due, h, hword, hparity] <;> exact if_pos hdue

/-- LDOn is low wherever nothing is sent (R57). -/
theorem Link.ldo_low (hs : l.engine ≠ .send) (hm : l.engine ≠ .mark) : l.ldo = false := by
  cases h : l.engine <;> simp only [Link.ldo, h]
  case send => exact absurd h hs
  case mark => exact absurd h hm

theorem Link.lck_iff : l.lck = true ↔ l.engine ≠ .idle ∧ l.divider ≤ 2 * l.sub := by
  rw [Link.lck, Bool.and_eq_true, bne_iff_ne, decide_eq_true_eq]

end Due

/-- Settles O45: the unit of time by the engine state, then the events that are due, then the pins. -/
theorem linkTimePasses : Obligations.LinkTimePasses := by
  refine ⟨fun l level => ⟨l.advance_idle level, l.advance_within level, fun hb => ?advance⟩,
    fun l n => ⟨l.due_idle n, fun h => ?sends, fun h => ?noReply, fun h => ?noData, fun h => ?tail, l.due_mark n, l.due_early n,
      l.due_word n⟩,
    fun l => ⟨fun c h hc => by simp only [Link.ldo, h, hc], fun h => by simp only [Link.ldo, h], l.ldo_low, l.lck_iff⟩⟩
  case advance =>
    have hends : ∀ e, l.engine = e → e ≠ .idle → l.advance level = ({ l with sub := 0 } : Link).endBit level :=
      fun e he hne => l.advance_bitEnds level (by rwa [he]) hb
    refine ⟨fun c he hc => ?send, fun he => ?turnaround, fun he => ?replyWait, fun he => ?dataWait, fun he => ?word, fun he => ?runs⟩
    case send =>
      rw [hends _ he nofun, ({ l with sub := 0 } : Link).endBit_send level c he hc]
      exact ⟨fun hlt => if_pos hlt, fun hge => if_neg (Nat.not_lt.2 hge)⟩
    case turnaround => rw [hends _ he nofun, ({ l with sub := 0 } : Link).endBit_turnaround level he]
    case replyWait | dataWait => rw [hends _ he nofun]; simp only [Link.endBit, he]
    case word | runs => rcases he with he | he <;> rw [hends _ he nofun] <;> simp only [Link.endBit, he]
  case sends => rcases h with h | h <;> simp only [Link.due, h]
  case noReply => simp only [Link.due, h]
  case noData => simp only [Link.due, h]
  case tail =>
    simp only [Link.due, h]
    rfl

/-! ### The beginning of a call and the end of a mark -/

/-- Settles O46: a requested call by its engine, then the rows CALL_BEGIN and ABORT_MARK_END. -/
theorem callBeginAndMarkEnd : Obligations.CallBeginAndMarkEnd := by
  refine ⟨fun l c => ⟨fun h => l.requestCall_begins c h.1 h.2, l.requestCall_waits c⟩, fun n s hf => ⟨fun c he hr => ?begins, fun he => ?mark⟩⟩
  case begins =>
    have hexec : exec (.callBegin n) s = .next (s.callBegin n).settle := rfl
    have hbegin : s.callBegin n = s.setLane n ((s.lane n).beginCall c) := by simp only [State.callBegin, he, hr]
    rw [hexec, hbegin]
    exact congrArg _ (s.settle_setLane n ((s.lane n).beginCall c) hf rfl)
  case mark =>
    have hexec : exec (.abortMarkEnd n) s = .next (s.abortMarkEnd n).settle := rfl
    have hend : s.abortMarkEnd n = s.setLane n { s.lane n with link := (s.lane n).link.toIdle } := if_pos he
    rw [hexec, hend]
    exact congrArg _ (s.settle_setLane n { s.lane n with link := (s.lane n).link.toIdle } hf rfl)

end Sys2Proof.Machine
end

section
/-! PROOF. The replies and ends of calls (R60, R64 to R70), and how the lane goes on when a call has ended (R20, R40, R82, R87,
R88, R90 to R92, R94, R95, R97). -/

namespace Sys2Proof.Machine

/-! ### Replies -/

/-- The outcome by a reply word, condition by condition (R65). -/
theorem replyOutcome_bad (w : Word) : replyOutcome w false = .parity := rfl

theorem replyOutcome_refused (w : Word) (h : w.getLsbD 15 = false) : replyOutcome w true = .notAccepted := by
  unfold replyOutcome replyAccept
  rw [h]
  rfl

theorem replyOutcome_accepted (w : Word) (h : w.getLsbD 15 = true) :
    replyOutcome w true = if w.getLsbD 14 = true then .nodeFault else .ok := by
  unfold replyOutcome replyAccept
  rw [h]
  rfl

section Reply

variable (s : State) (n : Fin 4) (c : Call) (word : Word) (parity : Bool) (ha : (s.lane n).link.awaitsReply = true)
  (hc : (s.lane n).link.call = some c)
include ha hc

/-- The reply of a PUT or CTL ends its call (R65). -/
theorem State.replyReceived_ends (hv : c.verb ≠ .get) : s.replyReceived n word parity =
    s.endCall n c (replyOutcome word (goodWord word parity)) (if goodWord word parity then some (replyStatus word) else none) := by
  unfold State.replyReceived
  dsimp only
  rw [if_pos ha, hc]
  cases h : c.verb with
  | get => exact absurd h hv
  | put | ctl => simp only [h]

/-- A bad or refusing reply of a GET ends its call (R66). -/
theorem State.replyReceived_get_refused (hv : c.verb = .get) (h : (goodWord word parity && word.getLsbD 15) = false) :
    s.replyReceived n word parity =
      s.endCall n c (replyOutcome word (goodWord word parity)) (if goodWord word parity then some (replyStatus word) else none) := by
  have hno : ¬ (goodWord word parity && replyAccept word) = true := Bool.eq_false_iff.1 h
  unfold State.replyReceived
  dsimp only
  rw [if_pos ha, hc]
  simp only [hv]
  rw [if_neg hno]

/-- A good, accepting reply of a GET (R66). -/
theorem State.replyReceived_get_accepted (hv : c.verb = .get) (hg : goodWord word parity = true) (h : word.getLsbD 15 = true) :
    s.replyReceived n word parity = s.getAccepted n c word := by
  have hyes : (goodWord word parity && replyAccept word) = true := by rw [hg, Bool.true_and]; exact h
  unfold State.replyReceived
  dsimp only
  rw [if_pos ha, hc]
  simp only [hv]
  rw [if_pos hyes]

end Reply

/-- Settles O47: the reply of a PUT or CTL by its outcome, and which outcomes are failures. -/
theorem putOrCtlReply : Obligations.PutOrCtlReply := by
  refine ⟨fun n c word parity s ha hc hv => ?reply, rfl, rfl, rfl, rfl⟩
  have hexec : exec (.replyReceived n word parity) s = .next (s.replyReceived n word parity).settle := rfl
  rw [hexec, s.replyReceived_ends n c word parity ha hc hv]
  refine ⟨fun hg => ?_, fun hg h15 => ?_, fun hg h15 h14 => ?_, fun hg h15 h14 => ?_⟩
  · rw [hg]
    rfl
  · rw [hg, replyOutcome_refused word h15]
    rfl
  · rw [hg, replyOutcome_accepted word h15, if_pos h14]
    rfl
  · rw [hg, replyOutcome_accepted word h15, if_neg (Bool.eq_false_iff.1 h14)]
    rfl

/-- AVAIL is the lower byte of a reply (R66). -/
theorem replyAvail_eq (w : Word) : replyAvail w = w.toNat % 256 := by
  rw [replyAvail, BitVec.extractLsb'_toNat, Nat.shiftRight_zero]

/-- The outcome of a GET by its first condition that applies (R68). -/
theorem getOutcome_eq (reply : Word) (c : Call) (bad : Bool) : getOutcome reply c bad =
    if bad = true then .parity
    else if c.exact = true ∧ reply.toNat % 256 < c.requested then .short
    else if reply.getLsbD 14 = true then .nodeFault else .ok := by
  unfold getOutcome replyFault
  rw [replyAvail_eq]
  simp only [Bool.and_eq_true, decide_eq_true_eq]

/-- Settles O48: a GET's reply word by whether it is good, whether it accepts and how many words follow it. -/
theorem getReply : Obligations.GetReply := by
  intro n c word parity s ha hc hv
  have hexec : exec (.replyReceived n word parity) s = .next (s.replyReceived n word parity).settle := rfl
  rw [hexec]
  refine ⟨fun hg => ?bad, fun hg h15 => ?refused, fun hg h15 hf hd => ?data, fun hg h15 hd => ?empty⟩
  case bad =>
    rw [s.replyReceived_get_refused n c word parity ha hc hv (by rw [hg]; rfl), hg]
    rfl
  case refused =>
    rw [s.replyReceived_get_refused n c word parity ha hc hv (by rw [h15, Bool.and_false]), hg, replyOutcome_refused word h15]
    rfl
  case data =>
    have haccepted : s.getAccepted n c word = s.setLane n { s.lane n with
        link := { (s.lane n).link.awaitData with
          reply := some word, expected := min (word.toNat % 256) c.requested, taken := 0, dataBad := false } } := by
      unfold State.getAccepted
      dsimp only
      rw [replyAvail_eq]
      exact if_neg (by omega)
    rw [s.replyReceived_get_accepted n c word parity ha hc hv hg h15, haccepted]
    exact congrArg _ (s.settle_setLane n { s.lane n with link := _ } hf rfl)
  case empty =>
    have haccepted : s.getAccepted n c word = s.endCall n c (getOutcome word c false) (some (replyStatus word)) := by
      unfold State.getAccepted
      dsimp only
      rw [replyAvail_eq]
      exact if_pos hd
    rw [s.replyReceived_get_accepted n c word parity ha hc hv hg h15, haccepted, getOutcome_eq]
    rfl

/-! ### Data words -/

/-- What a data word makes of the lane and its engine, before a last word ends the call (R67). -/
theorem State.dataWordReceived_eq (s : State) (n : Fin 4) (c : Call) (reply word : Word) (parity : Bool) (l : Lane)
    (he : (s.lane n).link.engine = .data) (hc : (s.lane n).link.call = some c) (hr : (s.lane n).link.reply = some reply)
    (hl : l = { s.lane n with
      inbound := if goodWord word parity = true then (s.lane n).inbound ++ [word] else (s.lane n).inbound
      link := { (s.lane n).link with
        engine := .dataWait, bit := 0, sub := 0, received := [], taken := (s.lane n).link.taken + 1
        dataBad := (s.lane n).link.dataBad || !goodWord word parity } }) :
    s.dataWordReceived n word parity = if (s.lane n).link.expected ≤ (s.lane n).link.taken + 1
      then (s.setLane n l).endCall n c (getOutcome reply c ((s.lane n).link.dataBad || !goodWord word parity))
        (some (replyStatus reply))
      else s.setLane n l := by
  have hawaits : (s.lane n).link.awaitsData = true := by simp only [Link.awaitsData, he, hc, Option.isSome_some]
  rw [hl]
  simp only [State.dataWordReceived, hawaits, if_true, hc, hr]
  rfl

/-- Settles O49: a data word before the last, and the last one. -/
theorem dataWordTaken : Obligations.DataWordTaken := by
  intro n c reply word parity bad l s hf he hc hr hbad hl
  have hexec : exec (.dataWordReceived n word parity) s = .next (s.dataWordReceived n word parity).settle := rfl
  have hrest : l.atRest = (s.lane n).atRest := by rw [hl]; rfl
  rw [hbad] at hl ⊢
  rw [hexec, s.dataWordReceived_eq n c reply word parity l he hc hr hl]
  refine ⟨fun hmore => ?_, fun hlast => ?_⟩
  · rw [if_neg (by omega)]
    exact congrArg _ (s.settle_setLane n l hf hrest)
  · rw [if_pos (by omega), getOutcome_eq]
    rfl

/-! ### Ends without a reply -/

/-- Settles O50: the two timeouts and the end of a broadcast. -/
theorem callsEndWithoutReply : Obligations.CallsEndWithoutReply := by
  intro n c s hc
  refine ⟨fun he hnode => ?timeout, fun reply he hr => ?truncated, fun he hnode => ?broadcast⟩
  case timeout =>
    have hexec : exec (.replyWaitTimeout n) s = .next (s.replyWaitTimeout n).settle := rfl
    have hcan : (s.lane n).link.replyCanTimeOut = true := by
      simp only [Link.replyCanTimeOut, Link.awaitsReply, he, hc, Call.isBroadcast, beq_false_of_ne hnode]
      rfl
    have hend : s.replyWaitTimeout n = s.endCall n c .noAnswer none := by
      simp only [State.replyWaitTimeout, hcan, if_true, hc]
    rw [hexec, hend]
  case truncated =>
    have hexec : exec (.dataWaitTimeout n) s = .next (s.dataWaitTimeout n).settle := rfl
    have hend : s.dataWaitTimeout n = s.endCall n c .truncated (some (replyStatus reply)) := by
      simp only [State.dataWaitTimeout, he, hc, hr]
    rw [hexec, hend]
    rfl
  case broadcast =>
    have hexec : exec (.broadcastTailEnd n) s = .next (s.broadcastTailEnd n).settle := rfl
    have hin : (s.lane n).link.inBroadcast = true := by
      simp only [Link.inBroadcast, he, hc, Call.isBroadcast, hnode, beq_self_eq_true]
    have hend : s.broadcastTailEnd n = s.endCall n c .ok none := by
      simp only [State.broadcastTailEnd, hin, if_true, hc]
    rw [hexec, hend]

/-! ### The lane as its call ends -/

/-- The error record and the engine of a lane whose call has ended (R57, R70, R87). -/
theorem Lane.callEnded_eq (l : Lane) (node : BitVec 6) (o : CallOutcome) (st : Option (BitVec 6)) :
    ({ l.recordOutcome node o st with link := (l.recordOutcome node o st).link.toIdle, outbound := [] } : Lane) =
      l.callEnded node o st := by
  cases st <;> rfl

theorem Lane.currentStep_callEnded (l : Lane) (node : BitVec 6) (o : CallOutcome) (st : Option (BitVec 6)) :
    (l.callEnded node o st).currentStep = l.currentStep := rfl

theorem Lane.selection_callEnded (l : Lane) (node : BitVec 6) (o : CallOutcome) (st : Option (BitVec 6)) :
    (l.callEnded node o st).selection = l.selection := rfl

section EndCall

variable (s : State) (n : Fin 4) (c : Call) (o : CallOutcome) (st : Option (BitVec 6))

theorem State.endCall_get (sel : Selection) (hv : c.verb = .get) (hsel : (s.lane n).selection = some sel) : s.endCall n c o st =
    s.setLane n { (s.lane n).callEnded c.node o st with
      inbound := (((s.lane n).callEnded c.node o st).buildEntry sel.window o).data
      work := .commitClaim (((s.lane n).callEnded c.node o st).buildEntry sel.window o) } := by
  unfold State.endCall
  dsimp only
  rw [Lane.callEnded_eq, Lane.selection_callEnded, hv, hsel]
  cases st <;> rfl

theorem State.endCall_put (sel : Selection) (hv : c.verb = .put) (hsel : (s.lane n).selection = some sel) : s.endCall n c o st =
    (if o.isFailure then (s.setLane n ((s.lane n).callEnded c.node o st)).addChanged sel.window (s.lane n).position
      else s.setLane n ((s.lane n).callEnded c.node o st)).callHandled n o := by
  unfold State.endCall
  dsimp only
  rw [Lane.callEnded_eq, Lane.selection_callEnded, hv, hsel]
  rfl

theorem State.endCall_ctl (hv : c.verb = .ctl) :
    s.endCall n c o st = (s.setLane n ((s.lane n).callEnded c.node o st)).callHandled n o := by
  unfold State.endCall
  dsimp only
  rw [Lane.callEnded_eq, hv]

end EndCall

/-- Settles O51. -/
theorem getEndBuildsEntry : Obligations.GetEndBuildsEntry := by
  intro n c o st x sel words s hv hstep hwords
  rw [s.endCall_get n c o st sel hv (Lane.selection_fetch _ x sel hstep), hwords]
  rfl

/-! ### The end of a step, field by field -/

/-- A lane whose step has ended: told to stop, at the next index, out of budget, or beyond index 63 (R81, R82, R121). -/
def Lane.stepEnded (l : Lane) : Lane :=
  if l.stopAtStepEnd then l.restAs .stopped
  else if h : l.stepIndex.val + 1 < 64 then
    if l.stepCount < 256 then l.fetching ⟨l.stepIndex.val + 1, h⟩
    else { l.restAs .faulted with
      stepIndex := ⟨l.stepIndex.val + 1, h⟩
      lastError := { code := .runaway, step := ⟨l.stepIndex.val + 1, h⟩, node := 0xFF } }
  else { l.restAs .faulted with lastError := { code := .badStep, step := 63, node := 0xFF } }

/-- The event that the end of a step raises: DONE(n), FAULT(n) or none. -/
def Lane.stepEndEvent (l : Lane) (n : Fin 4) : BitVec 19 :=
  if l.stopAtStepEnd then BitVec.twoPow 19 (10 + n.val)
  else if l.stepIndex.val + 1 < 64 ∧ l.stepCount < 256 then 0 else BitVec.twoPow 19 n.val

/-- The end of a step touches its lane and the pending set alone. -/
theorem State.endStep_fields (s : State) (n : Fin 4) : s.endStep n = { s with
    lanes := s.lanes.set n (s.lane n).stepEnded, events := s.events ||| (s.lane n).stepEndEvent n } := by
  unfold Lane.stepEnded Lane.stepEndEvent
  cases hstop : (s.lane n).stopAtStepEnd with
  | true => rw [s.endStep_stops n hstop, s.enterStopped_done, if_pos rfl, if_pos rfl]
  | false =>
    rw [if_neg Bool.false_ne_true, if_neg Bool.false_ne_true]
    by_cases hi : (s.lane n).stepIndex.val + 1 < 64
    · rw [dif_pos hi]
      by_cases hbudget : (s.lane n).stepCount < 256
      · rw [s.endStep_eq n ⟨_, hi⟩ rfl hstop hbudget, if_pos hbudget, if_pos ⟨hi, hbudget⟩,
          show s.events ||| 0 = s.events from BitVec.or_zero]
        rfl
      · rw [s.endStep_spent n ⟨_, hi⟩ rfl hstop (Nat.le_of_not_lt hbudget), if_neg hbudget, if_neg fun h => hbudget h.2]
    · have hlast : (s.lane n).stepIndex = 63 := Fin.ext (by have := (s.lane n).stepIndex.isLt; show (s.lane n).stepIndex.val = 63; omega)
      rw [s.endStep_runs_off n hlast hstop, dif_neg hi, if_neg fun h => hi h.1]

theorem State.endStep_changed (s : State) (n : Fin 4) : (s.endStep n).changed = s.changed := by rw [s.endStep_fields n]

theorem State.takeSend_changed (s : State) (n : Fin 4) (x : Bool) (sel : Selection) (k : Nat) :
    (s.takeSend n x sel k).changed = s.changed := by
  unfold State.takeSend
  dsimp only
  split
  · split
    · rfl
    · exact State.endStep_changed _ n
  · rfl

/-- How the lane goes on after a PUT call leaves the changed sets as they are. -/
theorem State.callHandled_changed (s : State) (n : Fin 4) (o : CallOutcome) (x : Bool) (sel : Selection)
    (h : (s.lane n).currentStep = some (.send x sel)) : (s.callHandled n o).changed = s.changed := by
  unfold State.callHandled
  split
  · rw [s.enterFaulted_eq]
  · rw [s.recordDone_send n x sel h]
    split
    · exact s.endStep_changed n
    · exact s.takeSend_changed n x sel _

/-! ### A PUT or CTL that has ended -/

theorem State.callHandled_fails (s : State) (n : Fin 4) (o : CallOutcome)
    (h : o.isFailure = true ∧ (s.lane n).settings.halt = true) : s.callHandled n o = s.enterFaulted n := by
  unfold State.callHandled
  rw [if_pos (by rw [h.1, h.2]; rfl)]

theorem State.callHandled_goesOn (s : State) (n : Fin 4) (o : CallOutcome)
    (h : ¬ (o.isFailure = true ∧ (s.lane n).settings.halt = true)) : s.callHandled n o = s.recordDone n := by
  unfold State.callHandled
  rw [if_neg (by rwa [Bool.and_eq_true])]

theorem State.recordDone_inline (s : State) (n : Fin 4) (node : BitVec 6) (words : List Word)
    (h : (s.lane n).currentStep = some (.inline node words)) : s.recordDone n = s.endStep n := by
  unfold State.recordDone
  dsimp only
  rw [h]

/-- A record put back into its changed set (R16, R20). -/
theorem State.mem_changedSet_addChanged (s : State) (u w : Fin 16) (k j : Nat) : j ∈ (s.addChanged w k).changedSet u ↔
    j ∈ s.changedSet u ∨ ((s.window u).tracked = true ∧ u = w ∧ j = k) := by
  rw [State.changedSet_addChanged]
  split
  case isTrue h =>
    obtain ⟨rfl, htracked⟩ := h
    rw [mem_insertIndex, or_comm]
    simp only [htracked, true_and]
  case isFalse h =>
    refine ⟨Or.inl, fun hor => hor.resolve_right ?_⟩
    rintro ⟨htracked, rfl, -⟩
    exact h ⟨rfl, htracked⟩

/-- The lane as it is and the changed sets as they are when a PUT call has ended, before the lane goes on. -/
theorem State.endCall_put_sets (s : State) (n : Fin 4) (c : Call) (o : CallOutcome) (st : Option (BitVec 6)) (sel : Selection)
    (l : Lane) (hl : l = (s.lane n).callEnded c.node o st) (hv : c.verb = .put) (hsel : (s.lane n).selection = some sel) :
    ∃ sets : Sixteen (List Nat),
      s.endCall n c o st = ({ s with lanes := s.lanes.set n l, changed := sets } : State).callHandled n o
      ∧ ∀ w k, k ∈ ({ s with changed := sets } : State).changedSet w ↔ k ∈ s.changedSet w
          ∨ (o.isFailure = true ∧ (s.window w).tracked = true ∧ w = sel.window ∧ k = l.position) := by
  have hend := s.endCall_put n c o st sel hv hsel
  rw [← hl] at hend
  have hposition : (s.lane n).position = l.position := by rw [hl]; rfl
  by_cases hfail : o.isFailure = true
  · refine ⟨((s.setLane n l).addChanged sel.window l.position).changed, ?_, fun w k => ?_⟩
    · rw [hend, if_pos hfail, hposition]
      refine congrArg (fun t : State => t.callHandled n o) ?_
      unfold State.addChanged
      split <;> rfl
    · refine ((s.setLane n l).mem_changedSet_addChanged w sel.window l.position k).trans (or_congr Iff.rfl ?_)
      rw [State.window_setLane]
      exact ⟨fun h => ⟨hfail, h⟩, fun h => h.2⟩
  · refine ⟨s.changed, ?_, fun w k => ⟨Or.inl, fun h => h.resolve_right fun h => hfail h.1⟩⟩
    rw [hend, if_neg hfail]
    rfl

/-- Settles O52: the end of a CTL, then the end of a PUT by its outcome, the stop flag and the records left. -/
theorem putOrCtlEndGoesOn : Obligations.PutOrCtlEndGoesOn := by
  intro n c o st l s hl
  refine ⟨fun node words hv hstep => ?ctl, fun x sel hv hstep => ?put⟩
  case ctl =>
    have hlane : (s.setLane n l).lane n = l := State.lane_setLane_same _ _ _
    have hstep' : ((s.setLane n l).lane n).currentStep = some (.inline node words) := by rw [hlane, hl]; exact hstep
    rw [s.endCall_ctl n c o st hv, ← hl]
    refine ⟨fun hfail => ?_, fun hgood => ?_⟩
    · rw [State.callHandled_fails _ n o (by rw [hlane]; exact hfail), State.enterFaulted_eq, hlane, State.setLane_lanes, Four.set_set]
      rfl
    · rw [State.callHandled_goesOn _ n o (by rw [hlane]; exact hgood), State.recordDone_inline _ n node words hstep']
      rfl
  case put =>
    obtain ⟨sets, hend, hsets⟩ := s.endCall_put_sets n c o st sel l hl hv (Lane.selection_send _ x sel hstep)
    generalize hu : ({ s with lanes := s.lanes.set n l, changed := sets } : State) = u at hend
    have hlane : u.lane n = l := by rw [← hu]; exact Four.get_set_same _ _ _
    have hstep' : (u.lane n).currentStep = some (.send x sel) := by rw [hlane, hl]; exact hstep
    have hchanged : (s.endCall n c o st).changed = sets := by
      rw [hend, u.callHandled_changed n o x sel hstep', ← hu]
    have hmem : ∀ j, l.position < j → (j ∈ u.changedSet sel.window ↔ j ∈ s.changedSet sel.window) := fun j hj => by
      rw [← hu]
      exact (hsets sel.window j).trans ⟨fun h => h.resolve_right fun h => by omega, Or.inl⟩
    have hset : ∀ k, u.setLane n k = { s with lanes := s.lanes.set n k, changed := sets } := fun k => by
      rw [← hu, State.setLane]
      simp only [Four.set_set]
    rw [hchanged, hend]
    refine ⟨fun w k => ?members, fun hfail => ?faults, fun hgood hlast => ?ends, fun hgood hstop hmore => ?next⟩
    case members =>
      rw [← hsets w k, State.changedSet, u.callHandled_changed n o x sel hstep', ← hu]
      rfl
    case faults =>
      rw [u.callHandled_fails n o (by rw [hlane]; exact hfail), u.enterFaulted_eq, hlane, ← hu]
      simp only [Four.set_set]
    case ends =>
      rw [u.callHandled_goesOn n o (by rw [hlane]; exact hgood), u.recordDone_send n x sel hstep', hlane,
        if_pos ((sel.lastTaken_iff l).2 hlast), u.endStep_fields, State.endStep_fields, ← hu]
      rfl
    case next =>
      have hnot : ¬ (l.stopAtStepEnd || decide (sel.last ≤ l.position)) = true := by
        rw [sel.lastTaken_iff, hstop]
        rintro (h | h)
        · cases h
        · omega
      rw [u.callHandled_goesOn n o (by rw [hlane]; exact hgood), u.recordDone_send n x sel hstep', hlane, if_neg hnot]
      refine ⟨fun hx => ?_, fun k hx hk hlt hin hfirst => ?_, fun hx hnone => ?_⟩
      · rw [hx, u.takeSend_every, hlane, hset]
      · rw [hx, u.takeSend_member n sel (l.position + 1) k hk hlt ((hmem k hk).2 hin)
          (fun j hj hjk => fun h => hfirst j hj hjk ((hmem j hj).1 h)) (by rw [hlane, hstop]; exact nofun), hlane, hset]
      · rw [hx, u.takeSend_no_member n sel (l.position + 1)
          (fun j hj hjlt _ => fun h => hnone j hj hjlt ((hmem j hj).1 h)) hmore, hlane, hset, State.endStep_fields,
          State.endStep_fields]
        rfl

end Sys2Proof.Machine
end

section
/-! PROOF. Timers that run out (R35, R76, R99, R112, R117) and the edge on TRIG (R118, R119). -/

namespace Sys2Proof.Machine

/-! ### Locks -/

/-- Settles O53, by whether the record is locked. -/
theorem lockExpiryResult : Obligations.LockExpiryResult := by
  intro w k s hf
  have hexec : exec (.lockExpiry w k) s = .next (s.expireLock w k).settle := rfl
  rw [hexec]
  refine ⟨fun hl => ?locked, fun hl => ?free⟩
  case locked =>
    have hexpire : s.expireLock w k = (s.releaseLock w k).raise .lockDrop := if_pos hl
    rw [hexpire]
    exact congrArg _ (State.settle_same s _ hf rfl (fun _ => rfl) rfl rfl)
  case free =>
    have hexpire : s.expireLock w k = s := if_neg (Bool.eq_false_iff.1 hl)
    rw [hexpire, s.settle_of_not_finishes hf]

/-! ### The timers of a lane -/

/-- A start is owed, and LATE(n) raised (R117, R118). -/
theorem State.owe_eq (s : State) (n : Fin 4) : s.owe n = { s with
    lanes := s.lanes.set n { s.lane n with startOwed := true }, events := s.events ||| BitVec.twoPow 19 (6 + n.val) } := by
  simp only [State.owe, State.raise, Event.late_bit]
  rfl

theorem Lane.atRest_of_state (l : Lane) (h : l.state = .waiting ∨ l.state = .running ∨ l.state = .holding) : l.atRest = false := by
  rcases h with h | h | h <;> simp only [Lane.atRest, h]

theorem State.periodTick_waiting (s : State) (n : Fin 4) (left : Nat) (hp : (s.lane n).periodTimer = some left)
    (hw : (s.lane n).state = .waiting) : s.periodTick n =
      s.setLane n { (s.lane n).atCycleStart with periodTimer := some ((s.lane n).settings.period * 1600) } := by
  unfold State.periodTick
  dsimp only
  rw [hp, hw]
  dsimp only
  rw [State.startCycle_eq, State.lane_setLane_same, State.setLane_setLane]
  rfl

theorem State.periodTick_busy (s : State) (n : Fin 4) (left : Nat) (hp : (s.lane n).periodTimer = some left)
    (hw : (s.lane n).state = .running ∨ (s.lane n).state = .holding) : s.periodTick n =
      (s.setLane n { s.lane n with startOwed := true, periodTimer := some ((s.lane n).settings.period * 1600) }).raise (.late n) := by
  have howe : ∀ l : Lane, (s.setLane n l).owe n = (s.setLane n { l with startOwed := true }).raise (.late n) := fun l => by
    rw [State.owe, State.lane_setLane_same, State.setLane_setLane]
  unfold State.periodTick
  dsimp only
  rcases hw with hw | hw <;> rw [hp, hw] <;> exact howe _

/-- Settles O54: the period, the delay of a WAIT step and the width of a pulse. -/
theorem laneTimersRunOut : Obligations.LaneTimersRunOut := by
  intro n s
  refine ⟨fun left hf hp => ⟨fun hw => ?begins, fun hw => ?late⟩, fun hw => ?delay, fun hf => ?pulse⟩
  case begins =>
    have hexec : exec (.periodTick n) s = .next (s.periodTick n).settle := rfl
    have hrest := (s.lane n).atRest_of_state (Or.inl hw)
    rw [hexec, s.periodTick_waiting n left hp hw]
    exact congrArg _ (s.settle_setLane n { (s.lane n).atCycleStart with periodTimer := _ } hf hrest.symm)
  case late =>
    have hexec : exec (.periodTick n) s = .next (s.periodTick n).settle := rfl
    rw [hexec, s.periodTick_busy n left hp hw]
    have hsettle : ∀ l : Lane, l.atRest = (s.lane n).atRest →
        ((s.setLane n l).raise (.late n)).settle = (s.setLane n l).raise (.late n) := fun l hl =>
      State.settle_same s ((s.setLane n l).raise (.late n)) hf rfl (s.atRest_setLane n l hl) rfl rfl
    rw [hsettle { s.lane n with startOwed := true, periodTimer := some ((s.lane n).settings.period * 1600) } rfl, State.raise,
      Event.late_bit]
    rfl
  case delay =>
    have hexec : exec (.waitDelayExpiry n) s = .next (s.waitDelayExpiry n).settle := rfl
    have hend : s.waitDelayExpiry n = (s.setLane n { s.lane n with delayTimer := none }).endStep n := if_pos hw
    rw [hexec, hend]
    rfl
  case pulse =>
    refine ⟨_, congrArg Host.Outcome.next (s.settle_setLane n { s.lane n with pulseTimer := none } hf rfl), rfl, fun hrun => ?_⟩
    rw [State.lfl, State.lane_setLane_same, State.setLane_phase, hrun]
    exact Bool.xor_false _

/-! ### The edge on TRIG -/

/-- A lane after the selected edge (R118, R119). -/
def Lane.atEdge (l : Lane) : Lane :=
  if l.state = .stopped ∨ l.state = .faulted ∨ l.startMode = .none then l
  else if l.startMode = .trigger then if l.state = .waiting then l.atCycleStart else { l with startOwed := true }
  else if l.state = .running ∧ l.work = .triggerWait then l.stepEnded
  else { l with triggerLatch := true }

/-- The event that the selected edge raises at a lane: LATE(n), what the end of a trigger WAIT raises, or none. -/
def Lane.edgeEvent (l : Lane) (n : Fin 4) : BitVec 19 :=
  if (l.state = .running ∨ l.state = .holding) ∧ l.startMode = .trigger then BitVec.twoPow 19 (6 + n.val)
  else if l.state = .running ∧ (l.startMode = .once ∨ l.startMode = .period) ∧ l.work = .triggerWait then l.stepEndEvent n
  else 0

section AtEdge

variable (l : Lane)

theorem Lane.atRest_iff : l.atRest = true ↔ l.state = .stopped ∨ l.state = .faulted := by
  cases h : l.state <;> simp [Lane.atRest, h]

theorem Lane.atEdge_atRest (h : l.atRest = true) : l.atEdge = l := if_pos (or_assoc.1 (Or.inl (l.atRest_iff.1 h)))

theorem Lane.atEdge_none (h : l.startMode = .none) : l.atEdge = l := if_pos (Or.inr (Or.inr h))

theorem Lane.atEdge_begins (hst : l.state = .waiting) (hmode : l.startMode = .trigger) : l.atEdge = l.atCycleStart := by
  simp only [Lane.atEdge, hst, hmode, reduceCtorEq, or_self, if_true, if_false]

theorem Lane.atEdge_owes (hst : l.state = .running ∨ l.state = .holding) (hmode : l.startMode = .trigger) :
    l.atEdge = { l with startOwed := true } := by
  unfold Lane.atEdge
  rcases hst with hst | hst <;> simp only [hst, hmode, reduceCtorEq, or_self, if_true, if_false]

theorem Lane.atEdge_latches (hact : l.active = true) (hmode : l.startMode = .once ∨ l.startMode = .period)
    (hwait : ¬ (l.state = .running ∧ l.work = .triggerWait)) : l.atEdge = { l with triggerLatch := true } := by
  have hno : ¬ (l.state = .stopped ∨ l.state = .faulted) := fun h => by
    rw [Lane.active_eq_not, l.atRest_iff.2 h] at hact
    cases hact
  unfold Lane.atEdge
  rcases hmode with hmode | hmode <;> simp only [not_or.1 hno, hmode, hwait, reduceCtorEq, or_self, if_false]

theorem Lane.atEdge_ends (hst : l.state = .running) (hmode : l.startMode = .once ∨ l.startMode = .period)
    (hwork : l.work = .triggerWait) : l.atEdge = l.stepEnded := by
  unfold Lane.atEdge
  rcases hmode with hmode | hmode <;> simp only [hst, hmode, hwork, reduceCtorEq, or_self, and_self, if_true, if_false]

variable (n : Fin 4)

theorem Lane.edgeEvent_late (hst : l.state = .running ∨ l.state = .holding) (hmode : l.startMode = .trigger) :
    l.edgeEvent n = BitVec.twoPow 19 (6 + n.val) := if_pos ⟨hst, hmode⟩

theorem Lane.edgeEvent_ends (hst : l.state = .running) (hmode : l.startMode = .once ∨ l.startMode = .period)
    (hwork : l.work = .triggerWait) : l.edgeEvent n = l.stepEndEvent n := by
  have hnot : l.startMode ≠ .trigger := by rcases hmode with h | h <;> rw [h] <;> decide
  exact (if_neg fun h => hnot h.2).trans (if_pos ⟨hst, hmode, hwork⟩)

theorem Lane.edgeEvent_none (hlate : ¬ ((l.state = .running ∨ l.state = .holding) ∧ l.startMode = .trigger))
    (hends : ¬ (l.state = .running ∧ (l.startMode = .once ∨ l.startMode = .period) ∧ l.work = .triggerWait)) : l.edgeEvent n = 0 :=
  (if_neg hlate).trans (if_neg hends)

end AtEdge

/-- The state after the selected edge at lane n alone. -/
def State.edged (s : State) (n : Fin 4) : State :=
  { s with lanes := s.lanes.set n (s.lane n).atEdge, events := s.events ||| (s.lane n).edgeEvent n }

/-- An edge that raises no event. -/
theorem State.edged_silent (s : State) (n : Fin 4) (l : Lane) (hl : (s.lane n).atEdge = l) (he : (s.lane n).edgeEvent n = 0) :
    s.setLane n l = s.edged n := by
  rw [State.edged, hl, he, show s.events ||| 0 = s.events from BitVec.or_zero]
  rfl

theorem State.edged_kept (s : State) (n : Fin 4) (hl : (s.lane n).atEdge = s.lane n) (he : (s.lane n).edgeEvent n = 0) :
    s = s.edged n := (s.setLane_lane n).symm.trans (s.edged_silent n _ hl he)

theorem State.edged_owes (s : State) (n : Fin 4) (hst : (s.lane n).state = .running ∨ (s.lane n).state = .holding)
    (hmode : (s.lane n).startMode = .trigger) : s.owe n = s.edged n := by
  rw [s.owe_eq, State.edged, Lane.atEdge_owes _ hst hmode, Lane.edgeEvent_late _ n hst hmode]

/-- A lane in a run that is in no trigger WAIT keeps the edge in its latch (R119). -/
theorem State.edged_latches (s : State) (n : Fin 4)
    (hst : (s.lane n).state = .waiting ∨ (s.lane n).state = .running ∨ (s.lane n).state = .holding)
    (hmode : (s.lane n).startMode = .once ∨ (s.lane n).startMode = .period)
    (hwait : ¬ ((s.lane n).state = .running ∧ (s.lane n).work = .triggerWait)) :
    s.setLane n { s.lane n with triggerLatch := true } = s.edged n := by
  have hact : (s.lane n).active = true := by rw [Lane.active_eq_not, Lane.atRest_of_state _ hst]; rfl
  have hnot : (s.lane n).startMode ≠ .trigger := by rcases hmode with h | h <;> rw [h] <;> decide
  exact s.edged_silent n _ (Lane.atEdge_latches _ hact hmode hwait)
    (Lane.edgeEvent_none _ n (fun h => hnot h.2) fun h => hwait ⟨h.1, h.2.2⟩)

/-- In start mode ONCE or PERIOD a RUNNING lane ends its trigger WAIT or keeps the edge in its latch (R119). -/
theorem State.edged_running (s : State) (n : Fin 4) (hst : (s.lane n).state = .running)
    (hmode : (s.lane n).startMode = .once ∨ (s.lane n).startMode = .period) :
    (if (s.lane n).work = .triggerWait then s.endStep n else s.setLane n { s.lane n with triggerLatch := true }) = s.edged n := by
  by_cases hw : (s.lane n).work = .triggerWait
  · rw [if_pos hw, s.endStep_fields, State.edged, Lane.atEdge_ends _ hst hmode hw, Lane.edgeEvent_ends _ n hst hmode hw]
  · rw [if_neg hw]
    exact s.edged_latches n (Or.inr (Or.inl hst)) hmode fun h => hw h.2

/-- The edge at a lane touches that lane and the pending set alone. -/
theorem State.edgeAtLane_eq (s : State) (n : Fin 4) : s.edgeAtLane n = s.edged n := by
  unfold State.edgeAtLane
  dsimp only
  split
  case h_1 hst hmode =>
    rw [s.startCycle_eq]
    exact s.edged_silent n _ (Lane.atEdge_begins _ hst hmode) (Lane.edgeEvent_none _ n (by simp [hst]) (by simp [hst]))
  case h_2 hst hmode => exact s.edged_owes n (Or.inl hst) hmode
  case h_3 hst hmode => exact s.edged_owes n (Or.inr hst) hmode
  case h_4 hst hmode => exact s.edged_latches n (Or.inl hst) (Or.inl hmode) (by simp [hst])
  case h_5 hst hmode => exact s.edged_latches n (Or.inl hst) (Or.inr hmode) (by simp [hst])
  case h_6 hst hmode => exact s.edged_running n hst (Or.inl hmode)
  case h_7 hst hmode => exact s.edged_running n hst (Or.inr hmode)
  case h_8 hst hmode => exact s.edged_latches n (Or.inr (Or.inr hst)) (Or.inl hmode) (by simp [hst])
  case h_9 hst hmode => exact s.edged_latches n (Or.inr (Or.inr hst)) (Or.inr hmode) (by simp [hst])
  case h_13 hst | h_14 hst =>
    exact s.edged_kept n (Lane.atEdge_atRest _ (by simp only [Lane.atRest, hst]))
      (Lane.edgeEvent_none _ n (by simp [hst]) (by simp [hst]))
  all_goals
    rename_i hmode
    exact s.edged_kept n (Lane.atEdge_none _ hmode) (Lane.edgeEvent_none _ n (by simp [hmode]) (by simp [hmode]))

/-- The edge at lanes 0 to 3 in turn. -/
theorem State.foldl_edgeAtLane (s : State) : laneList.foldl State.edgeAtLane s = { s.mapLanes Lane.atEdge with
    events := laneList.foldl (fun e n => e ||| (s.lane n).edgeEvent n) s.events } := by
  simp only [laneList, List.foldl_cons, List.foldl_nil, State.edgeAtLane_eq]
  rfl

theorem getLsbD_foldl_or (f : Fin 4 → BitVec 19) (ns : List (Fin 4)) (e : BitVec 19) (i : Nat) :
    (ns.foldl (fun e n => e ||| f n) e).getLsbD i = true ↔ e.getLsbD i = true ∨ ∃ n ∈ ns, (f n).getLsbD i = true := by
  induction ns generalizing e with
  | nil => simp
  | cons m rest ih =>
    rw [List.foldl_cons, ih, BitVec.getLsbD_or, Bool.or_eq_true, or_assoc]
    simp only [List.mem_cons, exists_eq_or_imp]

/-- The event at the end of a step, by its bit (R82, R121, R125). -/
theorem Lane.stepEndEvent_bit (l : Lane) (n : Fin 4) (c : Nat) (h1 : 1 ≤ c) (h2 : c ≤ 19) :
    (l.stepEndEvent n).getLsbD (c - 1) = true ↔ (c = 11 + n.val ∧ l.stopAtStepEnd = true)
      ∨ (c = 1 + n.val ∧ l.stopAtStepEnd = false ∧ (l.stepIndex = 63 ∨ 256 ≤ l.stepCount)) := by
  have hlast : l.stepIndex = 63 ↔ ¬ l.stepIndex.val + 1 < 64 := by
    have hlt := l.stepIndex.isLt
    rw [Fin.ext_iff, show (63 : Fin 64).val = 63 from rfl]
    omega
  have hfault : (l.stepIndex = 63 ∨ 256 ≤ l.stepCount) ↔ ¬ (l.stepIndex.val + 1 < 64 ∧ l.stepCount < 256) := by
    rw [hlast, not_and_or, Nat.not_lt (b := 256)]
  unfold Lane.stepEndEvent
  rw [hfault]
  cases l.stopAtStepEnd with
  | true =>
    rw [if_pos rfl, getLsbD_event_bit _ _ (by omega)]
    simp only [and_true, reduceCtorEq, false_and, and_false, or_false]
    omega
  | false =>
    rw [if_neg Bool.false_ne_true]
    split
    case isTrue h => simp [h]
    case isFalse h =>
      rw [getLsbD_event_bit _ _ (by omega)]
      simp only [h, not_false_eq_true, and_true, reduceCtorEq, and_false, false_or]
      omega

/-- The event that the edge raises at a lane, by its bit. -/
theorem Lane.edgeEvent_bit (l : Lane) (n : Fin 4) (c : Nat) (h1 : 1 ≤ c) (h2 : c ≤ 19) :
    (l.edgeEvent n).getLsbD (c - 1) = true ↔ (l.state = .running ∨ l.state = .holding) ∧
      ((c = 7 + n.val ∧ l.startMode = .trigger)
        ∨ (l.state = .running ∧ (l.startMode = .once ∨ l.startMode = .period) ∧ l.work = .triggerWait
          ∧ ((c = 11 + n.val ∧ l.stopAtStepEnd = true)
            ∨ (c = 1 + n.val ∧ l.stopAtStepEnd = false ∧ (l.stepIndex = 63 ∨ 256 ≤ l.stepCount))))) := by
  rw [← l.stepEndEvent_bit n c h1 h2]
  have hbit : c - 1 = 6 + n.val ↔ c = 7 + n.val := by omega
  unfold Lane.edgeEvent
  split
  case isTrue h =>
    obtain ⟨hstate, hmode⟩ := h
    rw [getLsbD_event_bit _ _ (by omega), hbit]
    simp only [hstate, hmode, true_and, and_true, reduceCtorEq, or_self, false_and, and_false, or_false]
  case isFalse hlate =>
    split
    case isTrue h =>
      obtain ⟨hstate, hmode, hwork⟩ := h
      have hnot : l.startMode ≠ .trigger := by rcases hmode with h | h <;> rw [h] <;> decide
      simp only [hstate, hmode, hwork, hnot, true_and, true_or, and_false, false_or]
    case isFalse hno =>
      refine ⟨fun h => absurd h (by simp), ?_⟩
      rintro ⟨hstate, ⟨-, hmode⟩ | ⟨hrun, hmode, hwork, -⟩⟩
      · exact absurd ⟨hstate, hmode⟩ hlate
      · exact absurd ⟨hrun, hmode, hwork⟩ hno

/-- Settles O55: the edge at the four lanes, whose events and lanes are then read one by one. -/
theorem triggerEdgeResult : Obligations.TriggerEdgeResult := by
  intro rising s
  have hexec : exec (.triggerEdge rising) s = .next (s.triggerEdge rising).settle := rfl
  rw [hexec]
  refine ⟨fun hopp hf => ?opposite, fun hsel => ?selected⟩
  case opposite =>
    have hnone : s.triggerEdge rising = s := if_neg (by rw [hopp]; cases s.settings.triggerFalling <;> decide)
    rw [hnone, s.settle_of_not_finishes hf]
  case selected =>
    have hedge : s.triggerEdge rising = laneList.foldl State.edgeAtLane s := if_pos hsel
    rw [hedge, s.foldl_edgeAtLane]
    refine ⟨_, rfl, rfl, fun c h1 h2 => ?_, fun n => ?_⟩
    · refine (getLsbD_foldl_or _ laneList s.events (c - 1)).trans (or_congr Iff.rfl ?_)
      simp only [mem_laneList, true_and, Lane.edgeEvent_bit _ _ c h1 h2]
    · have hlane : ∀ e, ({ s.mapLanes Lane.atEdge with events := e } : State).lane n = (s.lane n).atEdge :=
        fun _ => s.lane_mapLanes Lane.atEdge n
      have hend : (s.endStep n).lane n = (s.lane n).stepEnded := by
        rw [s.endStep_fields]
        exact Four.get_set_same _ _ _
      rw [hlane, hend]
      exact ⟨(s.lane n).atEdge_atRest, (s.lane n).atEdge_begins, (s.lane n).atEdge_owes,
        fun hact hmode hwork => (s.lane n).atEdge_latches hact hmode fun h => hwork h.2, (s.lane n).atEdge_ends⟩

end Sys2Proof.Machine
end
